-- ==== Sys2Proof/Word.lean ====
section
/-! DEFINITION. The word types of the block (30_encoding.md rule R80). Nothing here can be mended later, so nothing
here computes: every field extraction and every piece of arithmetic stands in Decode.lean or under Machine/. -/

namespace Sys2Proof

/-- Format B, the eight bits of `host_rsp` and `EVT` (rule R80). -/
abbrev Byte := BitVec 8

/-- Format H, the three bits of `host_op` (rule R80). -/
abbrev HostWord := BitVec 3

/-- Format Q, `{old, new}` (rule R80). -/
abbrev QuadWord := BitVec 4

/-- Format P, the remote packet (rule R80). -/
abbrev Packet := BitVec 12

/-- Format M, the pin vector `{enc, btn_n}` (rule R80). -/
abbrev PinVector := BitVec 10

/-- A mask of the six button lines (00_scope.md rule R6). -/
abbrev LineMask := BitVec 6

/-- A position number in the canonical quadrature sequence (10_state.md rule R42). -/
abbrev Quadrant := BitVec 2

end Sys2Proof
end

