-- ==== Sys2Proof/Config.lean ====
section
/-! DEFINITION. The record of implementation parameters (00_scope.md rule R9; 30_encoding.md rule R87), the sampled
input lines of one tick (rule R6) and the free values: what the environment and the host drive when the schedule of
inputs that `State` holds is used up. The reference values and the constraints stand in Machine/Parameters.lean. -/

namespace Sys2Proof

/-- The LogicalButton variants (00_scope.md section 7). Their codes are rule R86's, in `LogicalButton.code`. -/
inductive LogicalButton where
  /-- "no event". -/
  | noButton
  | enter
  | back
  | volumeUp
  | volumeDown
  | selectLeftUp
  | selectRightDown
  | directionalUp
  | directionalDown
  | directionalLeft
  | directionalRight
  deriving DecidableEq, Repr

/-- Rule R9, one field per parameter. A bound of `none` is the spec's `inf`. `CMD_MAP` is held as its table: a command
the table does not list maps to `None` (rule R87). The two rows of R9 that are code tables stand where their rules do:
`HOST_OP` in `decodeHost` (rule R81), the LogicalButton codes in `LogicalButton.code` (rule R86). -/
structure Config where
  /-- `W`, the width of `TCNT`, `ICR` and `cap_start`. -/
  w : Nat
  /-- `TICK_NS`; no rule of the model depends on it (70_reset_and_hazards.md rule R283). -/
  tickNs : Nat
  tLeadMin : Nat
  tLeadMax : Nat
  tZeroMin : Nat
  tZeroMax : Nat
  tOneMin : Nat
  tOneMax : Nat
  /-- `N_BITS`, the data pulses of a frame. -/
  nBits : Nat
  /-- `ADDR_BITS`, the width of a packet's address field. -/
  addrBits : Nat
  /-- `CMD_BITS`, the width of a packet's command field. -/
  cmdBits : Nat
  /-- `RX_ADDR`; its five bits are rule R10's `RX_ADDR < 32`. -/
  rxAddr : BitVec 5
  cmdMap : List (BitVec 7 × LogicalButton)
  tTimeout : Nat
  tDebounce : Nat
  tPress : Nat
  tSettle : Nat
  tDbMax : Option Nat
  tEnMax : Option Nat
  /-- `BLIPS_PER_DETENT`, the count at which a knob emits. -/
  blipsPerDetent : Nat
  /-- `N_BTN`, the number of button lines. -/
  nBtn : Nat
  deriving DecidableEq, Repr

/-- The input lines sampled once per tick (rule R6). -/
structure Inputs where
  /-- `rst`, active high. -/
  rst : Bool
  /-- `btn_n[5:0]`, active low. -/
  btnN : LineMask
  /-- `enc[3:0]`: bits 1..0 knob A, bits 3..2 knob B. -/
  enc : BitVec 4
  /-- `ir_in`, idle level 1. -/
  irIn : Bool
  /-- `host_op[2:0]`. -/
  hostOp : HostWord
  deriving DecidableEq, Repr

/-- Idle inputs (95_test_vectors.md section 0): nothing pressed, contacts 0, line idle, `NOP`. -/
def Inputs.idle : Inputs := ⟨false, 0x3F#6, 0#4, true, 0#3⟩

/-- FREE VALUE: `rst` at the n-th tick beyond the schedule of inputs; rule R5 leaves it to the environment. -/
opaque Config.freeRst : Nat → Bool

/-- FREE VALUE: `btn_n` at the n-th tick beyond the schedule of inputs (rule R5). -/
opaque Config.freeBtnN : Nat → BitVec 6

/-- FREE VALUE: `enc` at the n-th tick beyond the schedule of inputs (rule R5). -/
opaque Config.freeEnc : Nat → BitVec 4

/-- FREE VALUE: `ir_in` at the n-th tick beyond the schedule of inputs (rule R5). -/
opaque Config.freeIrIn : Nat → Bool

/-- FREE VALUE: `host_op` at the n-th tick beyond the schedule of inputs (rule R5: the host presents it). -/
opaque Config.freeHostOp : Nat → BitVec 3

end Sys2Proof
end

