-- ==== Sys2Proof/Syntax.lean ====
section
/-! DEFINITION. The operations of the block, one constructor per row of opcode_table.json: the eight host words of
format H, the sixteen transition words of format Q, the packets of format P, the pulse symbols of format S and the
internal engine operations of format U. -/

namespace Sys2Proof

/-- The two knobs (10_state.md rule R42). A format-Q word is stepped for one of them (42_quadrature.md rule R161);
the word itself does not say which. -/
inductive Knob where
  /-- The volume knob. -/
  | A
  /-- The selector knob. -/
  | B
  deriving DecidableEq, Repr

/-- One constructor per row of opcode_table.json. A format-Q word and `QSTEP` take the knob they are stepped for; the
generic packet takes its two fields; every other row has no operand. -/
inductive Instr where
  /-- `NOP`, format H, `000` (44_mailbox_host.md rule R222). -/
  | nop
  /-- `INIT`, format H, `001` (44_mailbox_host.md rule R223). -/
  | init
  /-- `POP`, format H, `010` (44_mailbox_host.md rule R224). -/
  | pop
  /-- `PEEK`, format H, `011` (44_mailbox_host.md rule R225). -/
  | peek
  /-- `ISANY`, format H, `100` (44_mailbox_host.md rule R226). -/
  | isany
  /-- `RESERVED5`, format H, `101` (44_mailbox_host.md rule R227). -/
  | reserved5
  /-- `RESERVED6`, format H, `110` (44_mailbox_host.md rule R227). -/
  | reserved6
  /-- `RESERVED7`, format H, `111` (44_mailbox_host.md rule R227). -/
  | reserved7
  /-- `Q_SAME_00`, format Q, `0000` (42_quadrature.md rule R163). -/
  | qSame00 (k : Knob)
  /-- `Q_FWD_01`, format Q, `0001` (42_quadrature.md rule R163). -/
  | qFwd01 (k : Knob)
  /-- `Q_SKIP_02`, format Q, `0010` (42_quadrature.md rule R163). -/
  | qSkip02 (k : Knob)
  /-- `Q_REV_03`, format Q, `0011` (42_quadrature.md rule R163). -/
  | qRev03 (k : Knob)
  /-- `Q_REV_10`, format Q, `0100` (42_quadrature.md rule R163). -/
  | qRev10 (k : Knob)
  /-- `Q_SAME_11`, format Q, `0101` (42_quadrature.md rule R163). -/
  | qSame11 (k : Knob)
  /-- `Q_FWD_12`, format Q, `0110` (42_quadrature.md rule R163). -/
  | qFwd12 (k : Knob)
  /-- `Q_SKIP_13`, format Q, `0111` (42_quadrature.md rule R163). -/
  | qSkip13 (k : Knob)
  /-- `Q_SKIP_20`, format Q, `1000` (42_quadrature.md rule R163). -/
  | qSkip20 (k : Knob)
  /-- `Q_REV_21`, format Q, `1001` (42_quadrature.md rule R163). -/
  | qRev21 (k : Knob)
  /-- `Q_SAME_22`, format Q, `1010` (42_quadrature.md rule R163). -/
  | qSame22 (k : Knob)
  /-- `Q_FWD_23`, format Q, `1011` (42_quadrature.md rule R163). -/
  | qFwd23 (k : Knob)
  /-- `Q_FWD_30`, format Q, `1100` (42_quadrature.md rule R163). -/
  | qFwd30 (k : Knob)
  /-- `Q_SKIP_31`, format Q, `1101` (42_quadrature.md rule R163). -/
  | qSkip31 (k : Knob)
  /-- `Q_REV_32`, format Q, `1110` (42_quadrature.md rule R163). -/
  | qRev32 (k : Knob)
  /-- `Q_SAME_33`, format Q, `1111` (42_quadrature.md rule R163). -/
  | qSame33 (k : Knob)
  /-- `PKT`, format P, `aaaaaccccccc` (43_ir_decoder.md rule R187). -/
  | pkt (addr : BitVec 5) (cmd : BitVec 7)
  /-- `PKT_VOLUMEUP`, format P, `000010010010` (43_ir_decoder.md rule R188). -/
  | pktVolumeUp
  /-- `PKT_VOLUMEDOWN`, format P, `000010010011` (43_ir_decoder.md rule R188). -/
  | pktVolumeDown
  /-- `PKT_ENTER`, format P, `000011100101` (43_ir_decoder.md rule R188). -/
  | pktEnter
  /-- `PKT_BACK`, format P, `000011100011` (43_ir_decoder.md rule R188). -/
  | pktBack
  /-- `PKT_DIRUP`, format P, `000011110100` (43_ir_decoder.md rule R188). -/
  | pktDirUp
  /-- `PKT_DIRDOWN`, format P, `000011110101` (43_ir_decoder.md rule R188). -/
  | pktDirDown
  /-- `PKT_DIRLEFT`, format P, `000010110100` (43_ir_decoder.md rule R188). -/
  | pktDirLeft
  /-- `PKT_DIRRIGHT`, format P, `000010110011` (43_ir_decoder.md rule R188). -/
  | pktDirRight
  /-- `SYM_LEAD`, format S (43_ir_decoder.md rule R182). -/
  | symLead
  /-- `SYM_NOTLEAD`, format S (43_ir_decoder.md rule R182). -/
  | symNotLead
  /-- `SYM_ZERO`, format S (43_ir_decoder.md rule R185). -/
  | symZero
  /-- `SYM_ONE`, format S (43_ir_decoder.md rule R185). -/
  | symOne
  /-- `SYM_BAD`, format S (43_ir_decoder.md rule R185). -/
  | symBad
  /-- `COUNT`, format U (40_capture.md rule R110). -/
  | count
  /-- `EDGE`, format U (40_capture.md rule R111). -/
  | edge
  /-- `CAPTURE`, format U (40_capture.md rule R112). -/
  | capture
  /-- `WIDTH`, format U (40_capture.md rule R114). -/
  | width
  /-- `PCDETECT`, format U (41_debounce.md rule R130). -/
  | pcdetect
  /-- `PCSTART`, format U (41_debounce.md rule R132). -/
  | pcstart
  /-- `DBSTART`, format U (41_debounce.md rule R134). -/
  | dbstart
  /-- `DBQUAL`, format U (41_debounce.md rule R135). -/
  | dbqual
  /-- `DBREL`, format U (41_debounce.md rule R136). -/
  | dbrel
  /-- `DBABORT`, format U (41_debounce.md rule R137). -/
  | dbabort
  /-- `ENSETTLE`, format U (42_quadrature.md rule R160). -/
  | ensettle
  /-- `ENSAMPLE`, format U (42_quadrature.md rule R161). -/
  | ensample
  /-- `QSTEP`, format U (42_quadrature.md rule R162). -/
  | qstep (k : Knob)
  /-- `ENABORT`, format U (42_quadrature.md rule R167). -/
  | enabort
  /-- `IRARM`, format U (43_ir_decoder.md rule R181). -/
  | irarm
  /-- `IRSYNC`, format U (43_ir_decoder.md rule R182). -/
  | irsync
  /-- `IRBIT`, format U (43_ir_decoder.md rule R185). -/
  | irbit
  /-- `IRADDR`, format U (43_ir_decoder.md rule R187). -/
  | iraddr
  /-- `IRCMD`, format U (43_ir_decoder.md rule R188). -/
  | ircmd
  /-- `IRREL`, format U (43_ir_decoder.md rule R189). -/
  | irrel
  /-- `IRTIMEOUT`, format U (43_ir_decoder.md rule R190). -/
  | irtimeout
  /-- `POST`, format U (44_mailbox_host.md rule R221). -/
  | post
  deriving DecidableEq, Repr

end Sys2Proof
end

