-- ==== Sys2Proof/WellFormed.lean ====
section
/-! DEFINITION. The check of an instruction's operands. Only the generic packet has any that can be ill-formed. -/

namespace Sys2Proof

/-- The eight packets that opcode_table.json lists by value, as address and command (rule R87 at `RX_ADDR` 1). -/
def namedPackets : List (BitVec 5 × BitVec 7) :=
  [(1#5, 0x12#7), (1#5, 0x13#7), (1#5, 0x65#7), (1#5, 0x63#7), (1#5, 0x74#7), (1#5, 0x75#7),
   (1#5, 0x34#7), (1#5, 0x33#7)]

/-- The generic row `PKT` stands for the packets that have no row of their own; every other instruction is
well-formed with every operand. -/
def Instr.wf : Instr → Bool
  | .nop => true
  | .init => true
  | .pop => true
  | .peek => true
  | .isany => true
  | .reserved5 => true
  | .reserved6 => true
  | .reserved7 => true
  | .qSame00 _ => true
  | .qFwd01 _ => true
  | .qSkip02 _ => true
  | .qRev03 _ => true
  | .qRev10 _ => true
  | .qSame11 _ => true
  | .qFwd12 _ => true
  | .qSkip13 _ => true
  | .qSkip20 _ => true
  | .qRev21 _ => true
  | .qSame22 _ => true
  | .qFwd23 _ => true
  | .qFwd30 _ => true
  | .qSkip31 _ => true
  | .qRev32 _ => true
  | .qSame33 _ => true
  | .pkt addr cmd => !namedPackets.contains (addr, cmd)
  | .pktVolumeUp => true
  | .pktVolumeDown => true
  | .pktEnter => true
  | .pktBack => true
  | .pktDirUp => true
  | .pktDirDown => true
  | .pktDirLeft => true
  | .pktDirRight => true
  | .symLead => true
  | .symNotLead => true
  | .symZero => true
  | .symOne => true
  | .symBad => true
  | .count => true
  | .edge => true
  | .capture => true
  | .width => true
  | .pcdetect => true
  | .pcstart => true
  | .dbstart => true
  | .dbqual => true
  | .dbrel => true
  | .dbabort => true
  | .ensettle => true
  | .ensample => true
  | .qstep _ => true
  | .enabort => true
  | .irarm => true
  | .irsync => true
  | .irbit => true
  | .iraddr => true
  | .ircmd => true
  | .irrel => true
  | .irtimeout => true
  | .post => true

end Sys2Proof
end

