-- ==== Sys2Proof/Decode.lean ====
section
/-! DEFINITION. Decoding and encoding of the formats of 30_encoding.md. A word is decoded by the format it is carried
in: `host_op` is always format H, a transition word always format Q, an assembled packet always format P; the same
bits mean different operations in different formats. Format-S symbols are ranges of a tick count and are read by
`decodeSyncPulse` and `decodeDataPulse`; format-U operations have no encoding. -/

namespace Sys2Proof

/-- A word in the format that carries it (rule R80): format H, format Q for one of the two knobs, format P. -/
inductive Encoded where
  | host (w : HostWord)
  | quad (k : Knob) (w : QuadWord)
  | packet (w : Packet)
  deriving DecidableEq, Repr

/-- Format H (rule R81): all eight codes are legal. -/
def decodeHost (w : HostWord) : Instr :=
  if w = 0b000#3 then .nop
  else if w = 0b001#3 then .init
  else if w = 0b010#3 then .pop
  else if w = 0b011#3 then .peek
  else if w = 0b100#3 then .isany
  else if w = 0b101#3 then .reserved5
  else if w = 0b110#3 then .reserved6
  else .reserved7

/-- Format Q (rule R90): all sixteen words are legal. -/
def decodeQuad (k : Knob) (w : QuadWord) : Instr :=
  if w = 0b0000#4 then .qSame00 k
  else if w = 0b0001#4 then .qFwd01 k
  else if w = 0b0010#4 then .qSkip02 k
  else if w = 0b0011#4 then .qRev03 k
  else if w = 0b0100#4 then .qRev10 k
  else if w = 0b0101#4 then .qSame11 k
  else if w = 0b0110#4 then .qFwd12 k
  else if w = 0b0111#4 then .qSkip13 k
  else if w = 0b1000#4 then .qSkip20 k
  else if w = 0b1001#4 then .qRev21 k
  else if w = 0b1010#4 then .qSame22 k
  else if w = 0b1011#4 then .qFwd23 k
  else if w = 0b1100#4 then .qFwd30 k
  else if w = 0b1101#4 then .qSkip31 k
  else if w = 0b1110#4 then .qRev32 k
  else .qSame33 k

/-- The address field of a packet, `pkt[11:7]` (rule R83). -/
def packetAddr (p : Packet) : BitVec 5 := p.extractLsb' 7 5

/-- The command field of a packet, `pkt[6:0]` (rule R83). -/
def packetCmd (p : Packet) : BitVec 7 := p.extractLsb' 0 7

/-- The packet of an address and a command, `(a << 7) | c` (rule R83). -/
def packetOf (addr : BitVec 5) (cmd : BitVec 7) : Packet := addr ++ cmd

/-- Format P (rule R83): the eight packets the table lists by value, and the generic packet for every other word. -/
def decodePacket (w : Packet) : Instr :=
  if w = 0b000010010010#12 then .pktVolumeUp
  else if w = 0b000010010011#12 then .pktVolumeDown
  else if w = 0b000011100101#12 then .pktEnter
  else if w = 0b000011100011#12 then .pktBack
  else if w = 0b000011110100#12 then .pktDirUp
  else if w = 0b000011110101#12 then .pktDirDown
  else if w = 0b000010110100#12 then .pktDirLeft
  else if w = 0b000010110011#12 then .pktDirRight
  else .pkt (packetAddr w) (packetCmd w)

/-- The decoder: total, since no word of a format is illegal (rules R90, R93). -/
def decode : Encoded → Instr
  | .host w => decodeHost w
  | .quad k w => decodeQuad k w
  | .packet w => decodePacket w

/-- Format S in frame sync (rule R85): the closed lead range, or not a lead. -/
def decodeSyncPulse (c : Config) (width : Nat) : Instr :=
  if c.tLeadMin ≤ width ∧ width ≤ c.tLeadMax then .symLead else .symNotLead

/-- Format S in bit capture (rule R85): the two closed bit ranges; every other width is `BAD`. -/
def decodeDataPulse (c : Config) (width : Nat) : Instr :=
  if c.tZeroMin ≤ width ∧ width ≤ c.tZeroMax then .symZero
  else if c.tOneMin ≤ width ∧ width ≤ c.tOneMax then .symOne
  else .symBad

/-- Why bytes are no word of a format. -/
inductive DecodeError where
  /-- The number of bytes is not the format's. -/
  | wrongLength
  /-- A bit above the format's width is set. -/
  | strayBits
  /-- No format has words of this size. -/
  | noFormat
  deriving DecidableEq, Repr

/-- The formats that have words (rule R80). -/
inductive WordFormat where
  | host
  | quad (k : Knob)
  | packet
  deriving DecidableEq, Repr

/-- The width of a format's words in bits (rule R80). -/
def WordFormat.bits : WordFormat → Nat
  | .host => 3
  | .quad _ => 4
  | .packet => 12

/-- The whole bytes that hold a word of the format. -/
def WordFormat.bytes : WordFormat → Nat
  | .host => 1
  | .quad _ => 1
  | .packet => 2

/-- The number that bytes spell, the first byte least significant. -/
def bytesToNat : List Byte → Nat
  | [] => 0
  | b :: rest => b.toNat + 256 * bytesToNat rest

/-- The first `n` bytes of a number, the least significant first. -/
def natToBytes : Nat → Nat → List Byte
  | 0, _ => []
  | n + 1, w => BitVec.ofNat 8 w :: natToBytes n (w / 256)

/-- The word of a format that a number stands for. -/
def WordFormat.word (f : WordFormat) (w : Nat) : Encoded :=
  match f with
  | .host => .host (BitVec.ofNat 3 w)
  | .quad k => .quad k (BitVec.ofNat 4 w)
  | .packet => .packet (BitVec.ofNat 12 w)

/-- The instruction that bytes hold in a format, or the name of what is wrong with them. -/
def decodeBytes (f : WordFormat) (bytes : List Byte) : Except DecodeError Instr :=
  if bytes.length ≠ f.bytes then .error .wrongLength
  else if 2 ^ f.bits ≤ bytesToNat bytes then .error .strayBits
  else .ok (decode (f.word (bytesToNat bytes)))

/-- The encoder: the word of an instruction, in the format that carries it; `none` for the rows of
opcode_table.json whose encoding is empty (formats S and U). -/
def encode : Instr → Option Encoded
  | .nop => some (.host 0b000#3)
  | .init => some (.host 0b001#3)
  | .pop => some (.host 0b010#3)
  | .peek => some (.host 0b011#3)
  | .isany => some (.host 0b100#3)
  | .reserved5 => some (.host 0b101#3)
  | .reserved6 => some (.host 0b110#3)
  | .reserved7 => some (.host 0b111#3)
  | .qSame00 k => some (.quad k 0b0000#4)
  | .qFwd01 k => some (.quad k 0b0001#4)
  | .qSkip02 k => some (.quad k 0b0010#4)
  | .qRev03 k => some (.quad k 0b0011#4)
  | .qRev10 k => some (.quad k 0b0100#4)
  | .qSame11 k => some (.quad k 0b0101#4)
  | .qFwd12 k => some (.quad k 0b0110#4)
  | .qSkip13 k => some (.quad k 0b0111#4)
  | .qSkip20 k => some (.quad k 0b1000#4)
  | .qRev21 k => some (.quad k 0b1001#4)
  | .qSame22 k => some (.quad k 0b1010#4)
  | .qFwd23 k => some (.quad k 0b1011#4)
  | .qFwd30 k => some (.quad k 0b1100#4)
  | .qSkip31 k => some (.quad k 0b1101#4)
  | .qRev32 k => some (.quad k 0b1110#4)
  | .qSame33 k => some (.quad k 0b1111#4)
  | .pkt addr cmd => some (.packet (packetOf addr cmd))
  | .pktVolumeUp => some (.packet 0b000010010010#12)
  | .pktVolumeDown => some (.packet 0b000010010011#12)
  | .pktEnter => some (.packet 0b000011100101#12)
  | .pktBack => some (.packet 0b000011100011#12)
  | .pktDirUp => some (.packet 0b000011110100#12)
  | .pktDirDown => some (.packet 0b000011110101#12)
  | .pktDirLeft => some (.packet 0b000010110100#12)
  | .pktDirRight => some (.packet 0b000010110011#12)
  | .symLead => none
  | .symNotLead => none
  | .symZero => none
  | .symOne => none
  | .symBad => none
  | .count => none
  | .edge => none
  | .capture => none
  | .width => none
  | .pcdetect => none
  | .pcstart => none
  | .dbstart => none
  | .dbqual => none
  | .dbrel => none
  | .dbabort => none
  | .ensettle => none
  | .ensample => none
  | .qstep _ => none
  | .enabort => none
  | .irarm => none
  | .irsync => none
  | .irbit => none
  | .iraddr => none
  | .ircmd => none
  | .irrel => none
  | .irtimeout => none
  | .post => none

/-- The format of the opcode_table.json row whose word has `nbits` bits (or as many whole bytes) and the value `w`.
One byte may hold a format-H or a format-Q word: a value below 8 is read as format H (which is presented at every
tick), a value of 8 to 15 can only be format Q. The table does not say which knob a format-Q word is for: knob A. -/
def tableFormat (nbits w : Nat) : Except DecodeError WordFormat :=
  if nbits = 3 then .ok .host
  else if nbits = 4 then .ok (.quad .A)
  else if nbits = 8 then (if w < 8 then .ok .host else .ok (.quad .A))
  else if nbits = 12 ∨ nbits = 16 then .ok .packet
  else .error .noFormat

/-- The instruction of a table word: its bytes, lowest first, given to the decoder of the row's format. -/
def decodeTableWord (nbits w : Nat) : Option Instr :=
  match tableFormat nbits w with
  | .error _ => none
  | .ok f =>
    if w < 256 ^ f.bytes then (decodeBytes f (natToBytes f.bytes w)).toOption else none

end Sys2Proof
end

