-- ==== Sys2Proof/Machine/Parameters.lean ====
section
/-! DEFINITION. The parameters at work: `CMD_MAP` as a total function, the reference values of
00_scope.md rule R9, and rule R10's test of a configuration. -/

namespace Sys2Proof

/-- The values `CMD_MAP` may take (rule R87): the eight remote-capable variants and `None`. -/
def LogicalButton.remoteCapable : LogicalButton → Bool
  | .selectLeftUp => false
  | .selectRightDown => false
  | .noButton => true
  | .enter => true
  | .back => true
  | .volumeUp => true
  | .volumeDown => true
  | .directionalUp => true
  | .directionalDown => true
  | .directionalLeft => true
  | .directionalRight => true

/-- `CMD_MAP` as a total function (rule R87): an unlisted command is unrecognised. -/
def Config.commandButton (c : Config) (cmd : BitVec 7) : LogicalButton :=
  ((c.cmdMap.find? (fun row => row.1 == cmd)).map Prod.snd).getD .noButton

/-- `x <= bound`, where `none` stands for `inf` (00_scope.md section 6). -/
def Config.withinBound (x : Nat) : Option Nat → Bool
  | none => true
  | some b => decide (x ≤ b)

/-- DEDUCED (assumption log 22). The values of rule R9's structural parameters for which the spec's registers, ports and
formats are written: format P is 12 bits, 5 of address and 7 of command (30_encoding.md rules R80, R83), there are six
button lines (rule R6), and a knob's count is stored in -3 to +3 (10_state.md rule R43). -/
def Config.fitsRegisters (c : Config) : Bool :=
  decide (c.nBits = 12) && (decide (c.addrBits = 5) && (decide (c.cmdBits = 7) && (decide (c.nBtn = 6)
    && (decide (1 ≤ c.blipsPerDetent) && decide (c.blipsPerDetent ≤ 4)))))

/-- Rule R87's two conditions on `CMD_MAP`: its fixed point, and the values it may take. -/
def Config.commandsFit (c : Config) : Bool :=
  decide (c.commandButton 0x12#7 = .volumeUp) && c.cmdMap.all (fun row => (c.commandButton row.1).remoteCapable)

/-- Rule R10, with rule R87's conditions on `CMD_MAP`: "A configuration that breaks a constraint is outside the spec: a
model should refuse it." -/
def Config.valid (c : Config) : Bool :=
  decide (1 ≤ c.tPress) && (decide (1 ≤ c.tDebounce) && (decide (1 ≤ c.tSettle)
    && (decide (1 ≤ c.tTimeout) && (decide (c.tTimeout < 2 ^ c.w) && (decide (c.tLeadMax < c.tTimeout)
    && (decide (c.tZeroMin ≤ c.tZeroMax) && (decide (c.tZeroMax < c.tOneMin)
    && (decide (c.tOneMin ≤ c.tOneMax) && (decide (c.tOneMax < c.tLeadMin) && (decide (c.tLeadMin ≤ c.tLeadMax)
    && (Config.withinBound c.tPress c.tDbMax && (Config.withinBound c.tSettle c.tEnMax
    && (c.commandsFit && c.fitsRegisters)))))))))))))

/-- The reference table of rule R87. Only the entry `0x12` is the source's (decision D7). -/
def Config.referenceCmdMap : List (BitVec 7 × LogicalButton) :=
  [(0x12#7, .volumeUp), (0x13#7, .volumeDown), (0x65#7, .enter), (0x63#7, .back),
   (0x74#7, .directionalUp), (0x75#7, .directionalDown), (0x34#7, .directionalLeft),
   (0x33#7, .directionalRight)]

/-- The reference values of rule R9, "what this spec uses in every worked example". -/
def Config.reference : Config where
  w := 16
  tickNs := 1000
  tLeadMin := 2100
  tLeadMax := 2700
  tZeroMin := 450
  tZeroMax := 749
  tOneMin := 900
  tOneMax := 1499
  nBits := 12
  addrBits := 5
  cmdBits := 7
  rxAddr := 1#5
  cmdMap := Config.referenceCmdMap
  tTimeout := 40000
  tDebounce := 10000
  tPress := 10000
  tSettle := 2000
  tDbMax := some 1000000
  tEnMax := some 40000
  blipsPerDetent := 4
  nBtn := 6

end Sys2Proof
end

