-- ==== Sys2Proof/Machine/State.lean ====
section
/-! DEFINITION. The state of the block: every register of 10_state.md rules R22 to R45, and the model's own fields
(parameters, scheduled inputs, the wires of a tick, the outputs of the last tick), as plain data. -/

namespace Sys2Proof.Machine

open Sys2Proof

/-- The decoder's state `ir_st` (rule R28); the constructors stand in the order of the spec's codes 0 to 5. -/
inductive IrState where
  | idle
  | syncLow
  | syncGap
  | bitGap
  | bitLow
  | rel
  deriving DecidableEq, Repr

/-- The sequencer's state `pch_st` (rule R35); the constructors stand in the order of the spec's codes 0 to 3. -/
inductive PchState where
  | idle
  | dbQual
  | dbRel
  | enSettle
  deriving DecidableEq, Repr

/-- `enc_state[k]`, the registers of one knob (rules R42, R43, R44). -/
structure EncState where
  quadrant : Quadrant
  /-- Signed; stored values are -3 to +3 (rule R43). -/
  blips : Int
  initialized : Bool
  deriving DecidableEq, Repr

/-- The direction of a captured edge (40_capture.md rule R112). -/
inductive Edge where
  | falling
  | rising
  deriving DecidableEq, Repr

/-- The causes of a `reject` (60_exceptions.md rule R241). -/
inductive RejectCause where
  | shortPress
  | badWidth
  | wrongAddress
  | incomplete
  | listen
  | debounceBound
  | settleBound
  deriving DecidableEq, Repr

/-- The error classes (60_exceptions.md rule R241). -/
inductive ErrorClass where
  | eBounce
  | eFrame
  | eTimeout
  /-- No reject is ever written with this class: the mask is posted unchanged. -/
  | eCompound
  deriving DecidableEq, Repr

/-- The four post ports of the mailbox (44_mailbox_host.md rule R221). -/
inductive PostPort where
  | db
  | A
  | B
  | ir
  deriving DecidableEq, Repr

/-- The posts of one tick: on each port, the value posted if there is one. The four ports are wired into `EVT`; "there is
no pointer, no registration and no state for it" (44_mailbox_host.md rule R230). -/
structure Posts where
  db : Option Byte
  A : Option Byte
  B : Option Byte
  ir : Option Byte
  deriving DecidableEq, Repr

/-- The derived values of a tick, "which do not survive the tick" (rule R47), and the tick's sampled lines. They are
operands of the internal operations, so they stand in `State` while a tick runs; every tick ends by clearing them. -/
structure Wires where
  /-- The lines sampled at this tick (phase P1). -/
  inp : Inputs
  /-- `fall` and `rise` (rule R111). -/
  fall : Bool
  rise : Bool
  /-- `chg` (rule R130). -/
  chg : Bool
  /-- `cap` with its direction (rule R112). -/
  cap : Option Edge
  /-- `w`, at a rising-edge capture (rule R114). -/
  width : Option Nat
  /-- The packet whose twelfth bit was stored in this tick (rule R186). -/
  packet : Option Packet
  /-- `clr` (rule R138). -/
  clr : Bool
  /-- Asserted by `INIT`: neither engine steps, `chg` does not set `PCIF` (rule R223). -/
  hold : Bool
  posts : Posts
  deriving DecidableEq, Repr

/-- The wires between two ticks. -/
def Wires.idle : Wires := ⟨Inputs.idle, false, false, false, none, none, none, false, false, ⟨none, none, none, none⟩⟩

/-- The outputs of a tick: the response of the host port (rule R6) and, in the order they occur, its rejects, the
trace that rule R194 allows a model to expose. Nothing reads either. -/
structure Outputs where
  hostRsp : Byte
  rejects : List RejectCause
  deriving DecidableEq, Repr

/-- Outputs of a tick in which nothing has answered yet. -/
def Outputs.quiet : Outputs := ⟨0x00#8, []⟩

/-- The machine's state. -/
structure State where
  /-- MODEL: the implementation parameters (00_scope.md rule R9); no operation changes them (rule R47). -/
  cfg : Config
  /-- MODEL: the lines the environment and the host will present at the coming ticks, the next tick's first. -/
  inputs : List Inputs
  /-- MODEL: how many ticks have taken their lines from the free values of Config. -/
  drawn : Nat
  /-- MODEL: the wires of the tick that is running. -/
  wires : Wires
  /-- MODEL: the outputs of the last tick. -/
  out : Outputs
  /-- `TCNT[W-1:0]` (rule R22). -/
  tcnt : Nat
  /-- `ICR[W-1:0]` (rule R23). -/
  icr : Nat
  /-- `ICES`: false selects the falling edge (rule R24). -/
  ices : Bool
  /-- `ICIE` (rule R25). -/
  icie : Bool
  /-- `ir_prev` (rule R26). -/
  irPrev : Bool
  /-- `cap_start[W-1:0]` (rule R27). -/
  capStart : Nat
  /-- `ir_st` (rule R28). -/
  irSt : IrState
  /-- `ir_cnt` (rule R29). -/
  irCnt : Nat
  /-- `bit_idx[3:0]` (rule R30). -/
  bitIdx : BitVec 4
  /-- `pkt[11:0]` (rule R31). -/
  pkt : Packet
  /-- `PCIE` (rule R32). -/
  pcie : Bool
  /-- `PCIF` (rule R33). -/
  pcif : Bool
  /-- `pc_prev[9:0]` (rule R34). -/
  pcPrev : PinVector
  /-- `pch_st` (rule R35). -/
  pchSt : PchState
  /-- `db_cand[5:0]` (rule R36). -/
  dbCand : LineMask
  /-- `db_cnt` (rule R37). -/
  dbCnt : Nat
  /-- `db_tot` (rule R38). -/
  dbTot : Nat
  /-- `en_raw[3:0]` (rule R39). -/
  enRaw : BitVec 4
  /-- `en_cnt` (rule R40). -/
  enCnt : Nat
  /-- `en_tot` (rule R41). -/
  enTot : Nat
  /-- `enc_state[A]` (rules R42 to R44). -/
  encA : EncState
  /-- `enc_state[B]` (rules R42 to R44). -/
  encB : EncState
  /-- `EVT[7:0]` (rule R45). -/
  evt : Byte
  deriving DecidableEq, Repr

/-- `ResetState` (70_reset_and_hazards.md rule R270), with the reference parameters and no inputs scheduled. -/
def State.reset : State where
  cfg := Config.reference
  inputs := []
  drawn := 0
  wires := Wires.idle
  out := Outputs.quiet
  tcnt := 0
  icr := 0
  ices := false
  icie := false
  irPrev := true
  capStart := 0
  irSt := .idle
  irCnt := 0
  bitIdx := 0#4
  pkt := 0x000#12
  pcie := false
  pcif := false
  pcPrev := 0x03F#10
  pchSt := .idle
  dbCand := 0#6
  dbCnt := 0
  dbTot := 0
  enRaw := 0#4
  enCnt := 0
  enTot := 0
  encA := ⟨0#2, 0, false⟩
  encB := ⟨0#2, 0, false⟩
  evt := 0x00#8

/-- Faults: there are none. "AIA-IEF raises no exception, fault or trap" (60_exceptions.md rule R240). -/
inductive Fault where
  deriving DecidableEq, Repr

/-- Refusals. -/
inductive Refusal where
  /-- Raised by an arm of `exec` whose instruction has no meaning yet; no arm raises it. Safe. -/
  | notModelled (mnemonic : String)
  /-- Raised by `step` when the parameters break 00_scope.md rule R10: "a model should refuse it". Safe. -/
  | badConfiguration
  deriving DecidableEq, Repr

end Sys2Proof.Machine
end

