-- ==== Sys2Proof/Machine/Operands.lean ====
section
/-! DEFINITION. Every operand the block assembles and every piece of its arithmetic (30_encoding.md rules R82 to R92,
45_arithmetic_control.md rule R300). -/

namespace Sys2Proof

/-- The LogicalButton codes (30_encoding.md rule R86). -/
def LogicalButton.code : LogicalButton → Byte
  | .noButton => 0x00#8
  | .enter => 0x01#8
  | .back => 0x02#8
  | .volumeUp => 0x04#8
  | .volumeDown => 0x08#8
  | .selectLeftUp => 0x10#8
  | .selectRightDown => 0x20#8
  | .directionalUp => 0x40#8
  | .directionalDown => 0x41#8
  | .directionalLeft => 0x42#8
  | .directionalRight => 0x43#8

namespace Machine

/-- `m[5:0] = (~btn_n) & 0x3F` (41_debounce.md rule R133). -/
def pressedMask (btnN : LineMask) : LineMask := ~~~btnN &&& 0x3F#6

/-- `pins[9:0] = {enc, btn_n}` (30_encoding.md rule R91). -/
def pinVector (enc : BitVec 4) (btnN : LineMask) : PinVector := enc ++ btnN

/-- `zext_8(m)` (rule R92). -/
def maskCode (m : LineMask) : Byte := m.setWidth 8

/-- `gray2bin(g) = {g[1], g[1] ^ g[0]}` (rule R88). -/
def gray2bin (g : BitVec 2) : Quadrant := BitVec.ofBool (g.getLsbD 1) ++ BitVec.ofBool (g.getLsbD 1 ^^ g.getLsbD 0)

/-- A knob's two contacts: `enc[1:0]` is knob A, `enc[3:2]` knob B (00_scope.md rule R6). -/
def knobSample (k : Knob) (enc : BitVec 4) : BitVec 2 :=
  match k with
  | .A => enc.extractLsb' 0 2
  | .B => enc.extractLsb' 2 2

/-- The knob's "increase" event (42_quadrature.md rule R161). -/
def increaseButton : Knob → LogicalButton
  | .A => .volumeUp
  | .B => .selectRightDown

/-- The knob's "decrease" event (42_quadrature.md rule R161). -/
def decreaseButton : Knob → LogicalButton
  | .A => .volumeDown
  | .B => .selectLeftUp

/-- The mailbox port of a knob's post (rule R221). -/
def knobPort : Knob → PostPort
  | .A => .A
  | .B => .B

/-- The blip count after a transition (42_quadrature.md rule R163): `d = (new - old) mod 4` is 1 forward, 3 reverse,
and 0 or 2 leave the count alone. -/
def countBlip (old new : Quadrant) (b : Int) : Int :=
  if new - old = 1#2 then b + 1
  else if new - old = 3#2 then b - 1
  else b

/-- The event a blip count emits (42_quadrature.md rule R164). -/
def detentButton (c : Config) (k : Knob) (b : Int) : Option LogicalButton :=
  if b = c.blipsPerDetent then some (increaseButton k)
  else if b = -(c.blipsPerDetent : Int) then some (decreaseButton k)
  else none

/-- The count that is stored: 0 after an event (rule R164) and 0 at quadrant 0 (42_quadrature.md rule R165). -/
def storedBlips (c : Config) (new : Quadrant) (b : Int) : Int :=
  if b = c.blipsPerDetent ∨ b = -(c.blipsPerDetent : Int) ∨ new = 0#2 then 0 else b

/-- `(TCNT + 1) mod 2^W` (40_capture.md rule R110). -/
def countUp (c : Config) (tcnt : Nat) : Nat := (tcnt + 1) % 2 ^ c.w

/-- `(TCNT - cap_start) mod 2^W` (40_capture.md rule R114). -/
def pulseWidth (c : Config) (tcnt capStart : Nat) : Nat := (tcnt + (2 ^ c.w - capStart % 2 ^ c.w)) % 2 ^ c.w

/-- `pkt | (b << bit_idx)` (43_ir_decoder.md rule R186). -/
def storedPacket (pkt : Packet) (bitIdx : BitVec 4) (b : Bool) : Packet :=
  pkt ||| ((BitVec.ofBool b).setWidth 12 <<< bitIdx.toNat)

/-- `bit_idx = N_BITS - 1` (43_ir_decoder.md rule R186). -/
def lastBit (c : Config) (bitIdx : BitVec 4) : Bool := bitIdx.toNat + 1 == c.nBits

/-- `x >= bound`; never true of `inf` (00_scope.md section 6). -/
def boundReached (x : Nat) : Option Nat → Bool
  | none => false
  | some b => decide (b ≤ x)

end Machine

end Sys2Proof
end

