-- ==== Sys2Proof/Machine/Flags.lean ====
section
/-! DEFINITION. Every one-bit value the block computes (10_state.md rule R46, 60_exceptions.md rules R241, R242). -/

namespace Sys2Proof.Machine

open Sys2Proof

/-- `fall` (40_capture.md rule R111). -/
def fallingEdge (irPrev irIn : Bool) : Bool := irPrev && !irIn

/-- `rise` (40_capture.md rule R111). -/
def risingEdge (irPrev irIn : Bool) : Bool := !irPrev && irIn

/-- The edge `ICES` selects, if it occurs: `(ICES = 0 and fall) or (ICES = 1 and rise)` (rule R112). -/
def selectedEdge (ices fall rise : Bool) : Option Edge :=
  if !ices && fall then some .falling
  else if ices && rise then some .rising
  else none

/-- `chg` (41_debounce.md rule R130). -/
def pinsChanged (pins pcPrev : PinVector) : Bool := pins != pcPrev

/-- `(PCIF and not clr) or (PCIE = 1 and chg)`: a set in the same tick wins over a clear (41_debounce.md rule R130). -/
def nextPcif (pcif clr pcie chg : Bool) : Bool := (pcif && !clr) || (pcie && chg)

/-- `ir_busy` (43_ir_decoder.md rule R193). -/
def irBusy (st : IrState) : Bool := st != .idle

/-- `isAnyPressed` (44_mailbox_host.md rule R226). -/
def anyPressed (m : LineMask) (st : IrState) : Bool := m != 0#6 || irBusy st

/-- The class of a reject's cause (60_exceptions.md rule R241). -/
def RejectCause.errorClass : RejectCause → ErrorClass
  | .shortPress => .eBounce
  | .badWidth => .eFrame
  | .wrongAddress => .eFrame
  | .incomplete => .eFrame
  | .listen => .eTimeout
  | .debounceBound => .eTimeout
  | .settleBound => .eTimeout

/-- The code of an error class (60_exceptions.md rule R241). -/
def ErrorClass.code : ErrorClass → Nat
  | .eBounce => 1
  | .eFrame => 2
  | .eTimeout => 3
  | .eCompound => 4

/-- Which reject a time-out is (43_ir_decoder.md rule R190). -/
def timeoutCause : IrState → Option RejectCause
  | .bitGap => some .incomplete
  | .bitLow => some .incomplete
  | .syncLow => some .listen
  | .syncGap => some .listen
  | .rel => none
  | .idle => none

end Sys2Proof.Machine
end

