-- ==== Sys2Proof/Machine/Ops.lean ====
section
/-! DEFINITION. The named operations over the registers that the meanings share. The block raises no exception
(60_exceptions.md rule R240), so there is no exception entry and no return from one: what stands in their place is
`withReject`, which names the error class and changes no register. -/

namespace Sys2Proof.Machine

open Sys2Proof

/-- The registers of knob `k`. -/
def State.enc (s : State) (k : Knob) : EncState :=
  match k with
  | .A => s.encA
  | .B => s.encB

/-- Writes the registers of knob `k`. -/
def State.withEnc (s : State) (k : Knob) (e : EncState) : State :=
  match k with
  | .A => { s with encA := e }
  | .B => { s with encB := e }

/-- `reject(class, cause)`: an entry of the tick's trace, no effect on any register (00_scope.md section 6). -/
def State.withReject (s : State) (c : RejectCause) : State :=
  { s with out := { s.out with rejects := s.out.rejects ++ [c] } }

/-- `host_rsp <- v`. -/
def State.withResponse (s : State) (v : Byte) : State :=
  { s with out := { s.out with hostRsp := v } }

/-- `clr <- true` (41_debounce.md rule R138). -/
def State.withClr (s : State) : State :=
  { s with wires := { s.wires with clr := true } }

/-- `post(src, v)`: a request on one of the four ports (44_mailbox_host.md rule R221). -/
def State.withPost (s : State) (p : PostPort) (v : Byte) : State :=
  match p with
  | .db => { s with wires := { s.wires with posts := { s.wires.posts with db := some v } } }
  | .A => { s with wires := { s.wires with posts := { s.wires.posts with A := some v } } }
  | .B => { s with wires := { s.wires with posts := { s.wires.posts with B := some v } } }
  | .ir => { s with wires := { s.wires with posts := { s.wires.posts with ir := some v } } }

/-- Posts a LogicalButton; `None` is never posted (44_mailbox_host.md rule R220). -/
def State.withButton (s : State) (p : PostPort) (b : LogicalButton) : State :=
  if b = .noButton then s else s.withPost p b.code

/-- This tick's pressed mask `m` (phase P1). -/
def State.mask (s : State) : LineMask := pressedMask s.wires.inp.btnN

/-- This tick's encoder lines `raw` (phase P1). -/
def State.raw (s : State) : BitVec 4 := s.wires.inp.enc

/-- This tick's pin vector `pins` (phase P1). -/
def State.pins (s : State) : PinVector := pinVector s.wires.inp.enc s.wires.inp.btnN

/-- The output `evt_pending`, combinational on `EVT` (44_mailbox_host.md rule R228). -/
def State.evtPending (s : State) : Bool := s.evt != 0x00#8

/-- The capture unit and the decoder step: `ICIE = 1` and not a tick of `INIT` (rules R112, R180). -/
def State.irRuns (s : State) : Bool := s.icie && !s.wires.hold

/-- The sequencer steps: `PCIE = 1` and not a tick of `INIT` (41_debounce.md rule R131). -/
def State.pchRuns (s : State) : Bool := s.pcie && !s.wires.hold

/-- The lines drawn beyond the schedule: the free values of Config (00_scope.md rule R5). -/
def freeInputs (n : Nat) : Inputs :=
  ⟨Config.freeRst n, Config.freeBtnN n, Config.freeEnc n, Config.freeIrIn n, Config.freeHostOp n⟩

/-- The lines of the next tick, and the state with them taken from the schedule. -/
def State.takeInputs (s : State) : Inputs × State :=
  match s.inputs with
  | i :: rest => (i, { s with inputs := rest })
  | [] => (freeInputs s.drawn, { s with drawn := s.drawn + 1 })

/-- Phase P1: the lines of the tick stand on its wires, every other wire and output is cleared. -/
def State.sample (s : State) (i : Inputs) : State :=
  { s with wires := { Wires.idle with inp := i }, out := Outputs.quiet }

/-- The end of a tick: its derived values do not survive it (10_state.md rule R47). -/
def State.endTick (s : State) : State := { s with wires := Wires.idle }

/-- Phase P0 with `rst = 1`: the whole state becomes `ResetState` (70_reset_and_hazards.md rule R270). The parameters
and the environment's schedule are not state of the block and stay. -/
def State.resetTick (s : State) : State :=
  { State.reset with cfg := s.cfg, inputs := s.inputs, drawn := s.drawn }

end Sys2Proof.Machine
end

