-- ==== Sys2Proof/Machine/Capture.lean ====
section
/-! DEFINITION. The Edge/Timer Capture unit (40_capture.md): `COUNT`, `EDGE`, `CAPTURE`, `WIDTH`. -/

namespace Sys2Proof.Machine

open Sys2Proof

/-- `COUNT` (rule R110). -/
def countOp (s : State) : State := { s with tcnt := countUp s.cfg s.tcnt }

/-- `EDGE` (rule R111): `fall` and `rise`, and `ir_prev <- ir_in`. Nothing between phases P1 and P5 reads `ir_prev`,
so the two halves of the rule are one operation. -/
def edgeOp (s : State) : State :=
  { s with
    wires := { s.wires with
      fall := fallingEdge s.irPrev s.wires.inp.irIn
      rise := risingEdge s.irPrev s.wires.inp.irIn }
    irPrev := s.wires.inp.irIn }

/-- `CAPTURE` (rules R112, R113). -/
def captureOp (s : State) : State :=
  match (if s.irRuns then selectedEdge s.ices s.wires.fall s.wires.rise else none) with
  | none => { s with wires := { s.wires with cap := none } }
  | some .falling =>
    { s with icr := s.tcnt, capStart := s.tcnt, ices := true, wires := { s.wires with cap := some .falling } }
  | some .rising =>
    { s with icr := s.tcnt, ices := false, wires := { s.wires with cap := some .rising } }

/-- `WIDTH` (rule R114): the width is delivered at a rising-edge capture. -/
def widthOp (s : State) : State :=
  match s.wires.cap with
  | some .rising => { s with wires := { s.wires with width := some (pulseWidth s.cfg s.tcnt s.capStart) } }
  | some .falling => { s with wires := { s.wires with width := none } }
  | none => { s with wires := { s.wires with width := none } }

def execCount (s : State) : Host.Outcome State Fault Refusal := .next (countOp s)

def execEdge (s : State) : Host.Outcome State Fault Refusal := .next (edgeOp s)

def execCapture (s : State) : Host.Outcome State Fault Refusal := .next (captureOp s)

def execWidth (s : State) : Host.Outcome State Fault Refusal := .next (widthOp s)

end Sys2Proof.Machine
end

