-- ==== Sys2Proof/Machine/Quadrature.lean ====
section
/-! DEFINITION. The Quadrature Decoder (42_quadrature.md): the sixteen format-Q words, `QSTEP`, `ENSAMPLE`, `ENSETTLE`
and `ENABORT`. -/

namespace Sys2Proof.Machine

open Sys2Proof

/-- The effect of the transition `{old, new}` of an initialised knob: count (rule R163), emit (rule R164), re-zero and
store (rule R165). -/
def stepKnob (k : Knob) (old new : Quadrant) (s : State) : State :=
  let b := countBlip old new (s.enc k).blips
  let stored := s.withEnc k { s.enc k with quadrant := new, blips := storedBlips s.cfg new b }
  match detentButton s.cfg k b with
  | some button => stored.withButton (knobPort k) button
  | none => stored

/-- The first sample of a knob (rule R162): `blips` is not written, nothing is posted. -/
def seedKnob (k : Knob) (new : Quadrant) (s : State) : State :=
  s.withEnc k { s.enc k with quadrant := new, initialized := true }

/-- A format-Q word `{old, new}` stepped for knob `k` (30_encoding.md rule R90): "Applies to an initialized knob; an
uninitialized knob is seeded by rule R162". -/
def transition (k : Knob) (old new : Quadrant) (s : State) : State :=
  if (s.enc k).initialized then stepKnob k old new s else seedKnob k new s

/-- `QSTEP` for knob `k` (rules R162 to R165): the transition from the stored quadrant to this tick's sample. -/
def qstepOp (k : Knob) (s : State) : State :=
  transition k (s.enc k).quadrant (gray2bin (knobSample k s.raw)) s

/-- `ENSAMPLE` (rule R161): both knobs are stepped from the one sample, A before B. -/
def ensampleOp (s : State) : State :=
  { qstepOp .B (qstepOp .A s) with pchSt := .idle }

/-- `ENABORT` (rule R167): no sample. -/
def enabortOp (s : State) : State := { s.withReject .settleBound with pchSt := .idle }

/-- `EnterSettle(raw)` (rule R160), called by the operations of 41_debounce.md. -/
def enterSettle (s : State) : State :=
  let entered := { s with pchSt := .enSettle, enRaw := s.raw, enCnt := 1, enTot := 0 }
  if s.cfg.tSettle ≤ 1 then ensampleOp entered else entered

/-- `ENSETTLE` (rule R160), a later tick of the settle window. -/
def ensettleOp (s : State) : State :=
  if s.pchRuns && s.pchSt == .enSettle then
    let tot := s.enTot + 1
    let c := if s.raw = s.enRaw then s.enCnt + 1 else 1
    let counted := { s with enTot := tot, enCnt := c, enRaw := s.raw }
    if s.cfg.tSettle ≤ c then ensampleOp counted
    else if boundReached tot s.cfg.tEnMax then enabortOp counted
    else counted
  else s

def execQSame00 (k : Knob) (s : State) : Host.Outcome State Fault Refusal := .next (transition k 0b00#2 0b00#2 s)

def execQFwd01 (k : Knob) (s : State) : Host.Outcome State Fault Refusal := .next (transition k 0b00#2 0b01#2 s)

def execQSkip02 (k : Knob) (s : State) : Host.Outcome State Fault Refusal := .next (transition k 0b00#2 0b10#2 s)

def execQRev03 (k : Knob) (s : State) : Host.Outcome State Fault Refusal := .next (transition k 0b00#2 0b11#2 s)

def execQRev10 (k : Knob) (s : State) : Host.Outcome State Fault Refusal := .next (transition k 0b01#2 0b00#2 s)

def execQSame11 (k : Knob) (s : State) : Host.Outcome State Fault Refusal := .next (transition k 0b01#2 0b01#2 s)

def execQFwd12 (k : Knob) (s : State) : Host.Outcome State Fault Refusal := .next (transition k 0b01#2 0b10#2 s)

def execQSkip13 (k : Knob) (s : State) : Host.Outcome State Fault Refusal := .next (transition k 0b01#2 0b11#2 s)

def execQSkip20 (k : Knob) (s : State) : Host.Outcome State Fault Refusal := .next (transition k 0b10#2 0b00#2 s)

def execQRev21 (k : Knob) (s : State) : Host.Outcome State Fault Refusal := .next (transition k 0b10#2 0b01#2 s)

def execQSame22 (k : Knob) (s : State) : Host.Outcome State Fault Refusal := .next (transition k 0b10#2 0b10#2 s)

def execQFwd23 (k : Knob) (s : State) : Host.Outcome State Fault Refusal := .next (transition k 0b10#2 0b11#2 s)

def execQFwd30 (k : Knob) (s : State) : Host.Outcome State Fault Refusal := .next (transition k 0b11#2 0b00#2 s)

def execQSkip31 (k : Knob) (s : State) : Host.Outcome State Fault Refusal := .next (transition k 0b11#2 0b01#2 s)

def execQRev32 (k : Knob) (s : State) : Host.Outcome State Fault Refusal := .next (transition k 0b11#2 0b10#2 s)

def execQSame33 (k : Knob) (s : State) : Host.Outcome State Fault Refusal := .next (transition k 0b11#2 0b11#2 s)

def execQstep (k : Knob) (s : State) : Host.Outcome State Fault Refusal := .next (qstepOp k s)

def execEnsample (s : State) : Host.Outcome State Fault Refusal := .next (ensampleOp s)

def execEnsettle (s : State) : Host.Outcome State Fault Refusal := .next (ensettleOp s)

def execEnabort (s : State) : Host.Outcome State Fault Refusal := .next (enabortOp s)

end Sys2Proof.Machine
end

