-- ==== Sys2Proof/Machine/Debounce.lean ====
section
/-! DEFINITION. The pin-change unit, the handler sequencer's start and the Debounce Engine (41_debounce.md):
`PCDETECT`, `PCSTART`, `DBSTART`, `DBQUAL`, `DBREL`, `DBABORT`. -/

namespace Sys2Proof.Machine

open Sys2Proof

/-- `PCDETECT` (rule R130): `chg`, the flag, and `pc_prev <- pins`. Nothing between phases P1 and P5 reads `pc_prev`
but the comparison itself, so the three parts of the rule are one operation. -/
def pcdetectOp (s : State) : State :=
  let chg := pinsChanged s.pins s.pcPrev
  { s with
    wires := { s.wires with chg := chg }
    pcif := if s.wires.hold then false else nextPcif s.pcif s.wires.clr s.pcie chg
    pcPrev := s.pins }

/-- `DbStart(m)` (rule R134). -/
def enterDebounce (s : State) : State :=
  if s.cfg.tPress ≤ 1 then { s with dbCand := s.mask, dbTot := 0, pchSt := .dbRel, dbCnt := 0 }
  else { s with dbCand := s.mask, dbTot := 0, pchSt := .dbQual, dbCnt := 1 }

/-- `DBSTART` (rule R134): "entering the engine with a non-zero mask". -/
def dbstartOp (s : State) : State :=
  if s.mask = 0#6 then s else enterDebounce s

/-- `PCSTART` (rule R132). -/
def pcstartOp (s : State) : State :=
  if s.pchRuns && s.pchSt == .idle && s.pcif then
    if s.mask = 0#6 then enterSettle s.withClr else enterDebounce s.withClr
  else s

/-- `DBABORT` (rule R137). -/
def dbabortOp (s : State) : State := enterSettle (s.withReject .debounceBound).withClr

/-- `DBQUAL` (rule R135). -/
def dbqualOp (s : State) : State :=
  if s.pchRuns && s.pchSt == .dbQual then
    let tot := s.dbTot + 1
    if s.mask = s.dbCand then
      let c := s.dbCnt + 1
      if s.cfg.tPress ≤ c then { s with dbTot := tot, pchSt := .dbRel, dbCnt := 0 }
      else if boundReached tot s.cfg.tDbMax then dbabortOp { s with dbTot := tot, dbCnt := c }
      else { s with dbTot := tot, dbCnt := c }
    else if s.mask = 0#6 then
      enterSettle ({ s with dbTot := tot }.withReject .shortPress).withClr
    else
      let restarted := { s with dbTot := tot, dbCand := s.mask, dbCnt := 1 }
      if boundReached tot s.cfg.tDbMax then dbabortOp restarted else restarted
  else s

/-- `DBREL` (rule R136). -/
def dbrelOp (s : State) : State :=
  if s.pchRuns && s.pchSt == .dbRel then
    let tot := s.dbTot + 1
    let c := if s.mask = 0#6 then s.dbCnt + 1 else 0
    let counted := { s with dbTot := tot, dbCnt := c }
    if s.cfg.tDebounce ≤ c then enterSettle (counted.withPost .db (maskCode s.dbCand)).withClr
    else if boundReached tot s.cfg.tDbMax then dbabortOp counted
    else counted
  else s

def execPcdetect (s : State) : Host.Outcome State Fault Refusal := .next (pcdetectOp s)

def execPcstart (s : State) : Host.Outcome State Fault Refusal := .next (pcstartOp s)

def execDbstart (s : State) : Host.Outcome State Fault Refusal := .next (dbstartOp s)

def execDbqual (s : State) : Host.Outcome State Fault Refusal := .next (dbqualOp s)

def execDbrel (s : State) : Host.Outcome State Fault Refusal := .next (dbrelOp s)

def execDbabort (s : State) : Host.Outcome State Fault Refusal := .next (dbabortOp s)

end Sys2Proof.Machine
end

