-- ==== Sys2Proof/Machine/IrDecoder.lean ====
section
/-! DEFINITION. The IR Protocol Decoder (43_ir_decoder.md): the symbols of format S, the packets of format P, and
`IRARM`, `IRSYNC`, `IRBIT`, `IRADDR`, `IRCMD`, `IRREL`, `IRTIMEOUT`. The writes of a capture to `ICR`, `ICES` and
`cap_start` are `CAPTURE`'s (40_capture.md rule R112); an operation here runs on the wires `CAPTURE` and `WIDTH` drive. -/

namespace Sys2Proof.Machine

open Sys2Proof

/-- `LEAD` in frame sync (rule R182): frame start. -/
def leadOp (s : State) : State :=
  if s.irSt = .syncLow then { s with bitIdx := 0#4, pkt := 0x000#12, irSt := .bitGap } else s

/-- Not a lead, in frame sync (rule R182): keep listening. -/
def notLeadOp (s : State) : State :=
  if s.irSt = .syncLow then { s with irSt := .syncGap } else s

/-- `StoreBit(b)` (rule R186). After the last of `N_BITS` bits the packet stands on its wire for `IRADDR` and `IRCMD`. -/
def storeBit (b : Bool) (s : State) : State :=
  let pk := storedPacket s.pkt s.bitIdx b
  if lastBit s.cfg s.bitIdx then { s with pkt := pk, wires := { s.wires with packet := some pk } }
  else { s with pkt := pk, bitIdx := s.bitIdx + 1#4, irSt := .bitGap }

/-- `ZERO` in bit capture (rules R185, R186). -/
def zeroOp (s : State) : State := if s.irSt = .bitLow then storeBit false s else s

/-- `ONE` in bit capture (rules R185, R186). -/
def oneOp (s : State) : State := if s.irSt = .bitLow then storeBit true s else s

/-- `BAD` in bit capture (rules R185, R192): frame sync restarts. -/
def badOp (s : State) : State :=
  if s.irSt = .bitLow then { s.withReject .badWidth with irSt := .syncGap } else s

/-- A foreign packet (rules R187, R192): discarded, frame sync restarts, no release wait. -/
def rejectAddress (s : State) : State := { s.withReject .wrongAddress with irSt := .syncGap }

/-- The command of an accepted packet (rule R188): posted unless `None`; the release wait follows whatever it is. -/
def acceptCommand (p : Packet) (s : State) : State :=
  { s.withButton .ir (s.cfg.commandButton (packetCmd p)) with irSt := .rel }

/-- `Complete(pk)` (rules R187, R188), the effect of a format-P word. -/
def completePacket (p : Packet) (s : State) : State :=
  if packetAddr p = s.cfg.rxAddr then acceptCommand p s else rejectAddress s

/-- `IRARM` (rule R181): the capture that leaves `IR_IDLE`. -/
def irarmOp (s : State) : State :=
  if s.irSt = .idle ∧ s.wires.cap.isSome then { s with irCnt := 0, irSt := .syncLow } else s

/-- `IRSYNC` (rules R182, R183): the end of a pulse in `IR_SYNC_LOW`, the next falling edge in `IR_SYNC_GAP`. A capture
that delivers no width in `IR_SYNC_LOW` does not occur (rule R48 item 2); here it classifies nothing. -/
def irsyncOp (s : State) : State :=
  let t := { s with irCnt := 0 }
  match s.irSt, s.wires.cap with
  | .syncLow, some _ =>
    match s.wires.width with
    | some w => if decodeSyncPulse s.cfg w = .symLead then leadOp t else notLeadOp t
    | none => t
  | .syncGap, some _ => { t with irSt := .syncLow }
  | _, _ => s

/-- `IRBIT` (rules R184 to R186): the falling edge of a data pulse in `IR_BIT_GAP`, its end in `IR_BIT_LOW`. A capture
that delivers no width in `IR_BIT_LOW` does not occur (rule R48 item 2); here it classifies nothing. -/
def irbitOp (s : State) : State :=
  let t := { s with irCnt := 0 }
  match s.irSt, s.wires.cap with
  | .bitGap, some _ => { t with irSt := .bitLow }
  | .bitLow, some _ =>
    match s.wires.width with
    | some w =>
      if decodeDataPulse s.cfg w = .symZero then zeroOp t
      else if decodeDataPulse s.cfg w = .symOne then oneOp t
      else badOp t
    | none => t
  | _, _ => s

/-- `IRADDR` (rule R187): the address check of the packet completed in this tick. A foreign packet is consumed. -/
def iraddrOp (s : State) : State :=
  match s.wires.packet with
  | none => s
  | some p =>
    if packetAddr p = s.cfg.rxAddr then s
    else { rejectAddress s with wires := { s.wires with packet := none } }

/-- `IRCMD` (rule R188): the command of the packet completed in this tick, once its address is accepted. -/
def ircmdOp (s : State) : State :=
  match s.wires.packet with
  | none => s
  | some p => acceptCommand p s

/-- `IRREL` (rule R189): a capture in the release wait restarts the silence and does nothing else. -/
def irrelOp (s : State) : State :=
  if s.irSt = .rel ∧ s.wires.cap.isSome then { s with irCnt := 0 } else s

/-- `IRTIMEOUT` (rules R190, R191): a tick without a capture outside `IR_IDLE`. -/
def irtimeoutOp (s : State) : State :=
  if s.irRuns && s.wires.cap.isNone && irBusy s.irSt then
    let counted := { s with irCnt := s.irCnt + 1 }
    if s.cfg.tTimeout ≤ s.irCnt + 1 then
      let idle := { counted with irSt := .idle, ices := false }
      match timeoutCause s.irSt with
      | some c => idle.withReject c
      | none => idle
    else counted
  else s

def execPkt (addr : BitVec 5) (cmd : BitVec 7) (s : State) : Host.Outcome State Fault Refusal := .next (completePacket (packetOf addr cmd) s)

def execPktVolumeUp (s : State) : Host.Outcome State Fault Refusal := .next (completePacket 0b000010010010#12 s)

def execPktVolumeDown (s : State) : Host.Outcome State Fault Refusal := .next (completePacket 0b000010010011#12 s)

def execPktEnter (s : State) : Host.Outcome State Fault Refusal := .next (completePacket 0b000011100101#12 s)

def execPktBack (s : State) : Host.Outcome State Fault Refusal := .next (completePacket 0b000011100011#12 s)

def execPktDirUp (s : State) : Host.Outcome State Fault Refusal := .next (completePacket 0b000011110100#12 s)

def execPktDirDown (s : State) : Host.Outcome State Fault Refusal := .next (completePacket 0b000011110101#12 s)

def execPktDirLeft (s : State) : Host.Outcome State Fault Refusal := .next (completePacket 0b000010110100#12 s)

def execPktDirRight (s : State) : Host.Outcome State Fault Refusal := .next (completePacket 0b000010110011#12 s)

def execSymLead (s : State) : Host.Outcome State Fault Refusal := .next (leadOp s)

def execSymNotLead (s : State) : Host.Outcome State Fault Refusal := .next (notLeadOp s)

def execSymZero (s : State) : Host.Outcome State Fault Refusal := .next (zeroOp s)

def execSymOne (s : State) : Host.Outcome State Fault Refusal := .next (oneOp s)

def execSymBad (s : State) : Host.Outcome State Fault Refusal := .next (badOp s)

def execIrarm (s : State) : Host.Outcome State Fault Refusal := .next (irarmOp s)

def execIrsync (s : State) : Host.Outcome State Fault Refusal := .next (irsyncOp s)

def execIrbit (s : State) : Host.Outcome State Fault Refusal := .next (irbitOp s)

def execIraddr (s : State) : Host.Outcome State Fault Refusal := .next (iraddrOp s)

def execIrcmd (s : State) : Host.Outcome State Fault Refusal := .next (ircmdOp s)

def execIrrel (s : State) : Host.Outcome State Fault Refusal := .next (irrelOp s)

def execIrtimeout (s : State) : Host.Outcome State Fault Refusal := .next (irtimeoutOp s)

end Sys2Proof.Machine
end

