-- ==== Sys2Proof/Machine/Mailbox.lean ====
section
/-! DEFINITION. The Event Aggregator and the host operations (44_mailbox_host.md): `POST`, `NOP`, `INIT`, `POP`, `PEEK`,
`ISANY` and the three reserved codes. A host operation here is its phase P2 (and, for `INIT`, its writes of P3); the
engines of the same tick are run by Machine/Tick.lean. -/

namespace Sys2Proof.Machine

open Sys2Proof

/-- One post applied to the mailbox value. -/
def applyPost (e : Byte) : Option Byte → Byte
  | none => e
  | some v => v

/-- `POST`, phase P4 (rule R221): in the order db, A, B, ir, the last present post is kept. This is the wiring of the four
post ports into `EVT` that rule R230 calls the sink. -/
def postOp (s : State) : State :=
  let p := s.wires.posts
  { s with evt := applyPost (applyPost (applyPost (applyPost s.evt p.db) p.A) p.B) p.ir }

/-- A code that calls nothing: response `0x00`, nothing read or written (rules R222, R227). -/
def noCall (s : State) : State := s.withResponse 0x00#8

/-- `INIT` (rule R223). `hold` is the rule's "in this tick: IrStep and PchStep do not run, nothing is posted, chg does
not set PCIF". -/
def initOp (s : State) : State :=
  { s.withResponse 0x00#8 with
    pcie := true
    icie := true
    ices := false
    irSt := .idle
    pcif := false
    pchSt := .idle
    wires := { s.wires with hold := true } }

/-- `POP` (rule R224). -/
def popOp (s : State) : State := { s.withResponse s.evt with evt := 0x00#8 }

/-- `PEEK` (rule R225). -/
def peekOp (s : State) : State := s.withResponse s.evt

/-- `ISANY` (rule R226). -/
def isanyOp (s : State) : State :=
  s.withResponse (if anyPressed s.mask s.irSt then 0x01#8 else 0x00#8)

def execNop (s : State) : Host.Outcome State Fault Refusal := .next (noCall s)

def execInit (s : State) : Host.Outcome State Fault Refusal := .next (initOp s)

def execPop (s : State) : Host.Outcome State Fault Refusal := .next (popOp s)

def execPeek (s : State) : Host.Outcome State Fault Refusal := .next (peekOp s)

def execIsany (s : State) : Host.Outcome State Fault Refusal := .next (isanyOp s)

def execReserved5 (s : State) : Host.Outcome State Fault Refusal := .next (noCall s)

def execReserved6 (s : State) : Host.Outcome State Fault Refusal := .next (noCall s)

def execReserved7 (s : State) : Host.Outcome State Fault Refusal := .next (noCall s)

def execPost (s : State) : Host.Outcome State Fault Refusal := .next (postOp s)

end Sys2Proof.Machine
end

