-- ==== Sys2Proof/Machine/Dispatch.lean ====
section
/-! DEFINITION. One arm per constructor of `Instr`, each one call of the instruction's meaning. -/

namespace Sys2Proof.Machine

open Sys2Proof

def exec (i : Instr) (s : State) : Host.Outcome State Fault Refusal :=
  match i with
  | .nop => Sys2Proof.Machine.execNop s
  | .init => Sys2Proof.Machine.execInit s
  | .pop => Sys2Proof.Machine.execPop s
  | .peek => Sys2Proof.Machine.execPeek s
  | .isany => Sys2Proof.Machine.execIsany s
  | .reserved5 => Sys2Proof.Machine.execReserved5 s
  | .reserved6 => Sys2Proof.Machine.execReserved6 s
  | .reserved7 => Sys2Proof.Machine.execReserved7 s
  | .qSame00 k => Sys2Proof.Machine.execQSame00 k s
  | .qFwd01 k => Sys2Proof.Machine.execQFwd01 k s
  | .qSkip02 k => Sys2Proof.Machine.execQSkip02 k s
  | .qRev03 k => Sys2Proof.Machine.execQRev03 k s
  | .qRev10 k => Sys2Proof.Machine.execQRev10 k s
  | .qSame11 k => Sys2Proof.Machine.execQSame11 k s
  | .qFwd12 k => Sys2Proof.Machine.execQFwd12 k s
  | .qSkip13 k => Sys2Proof.Machine.execQSkip13 k s
  | .qSkip20 k => Sys2Proof.Machine.execQSkip20 k s
  | .qRev21 k => Sys2Proof.Machine.execQRev21 k s
  | .qSame22 k => Sys2Proof.Machine.execQSame22 k s
  | .qFwd23 k => Sys2Proof.Machine.execQFwd23 k s
  | .qFwd30 k => Sys2Proof.Machine.execQFwd30 k s
  | .qSkip31 k => Sys2Proof.Machine.execQSkip31 k s
  | .qRev32 k => Sys2Proof.Machine.execQRev32 k s
  | .qSame33 k => Sys2Proof.Machine.execQSame33 k s
  | .pkt addr cmd => Sys2Proof.Machine.execPkt addr cmd s
  | .pktVolumeUp => Sys2Proof.Machine.execPktVolumeUp s
  | .pktVolumeDown => Sys2Proof.Machine.execPktVolumeDown s
  | .pktEnter => Sys2Proof.Machine.execPktEnter s
  | .pktBack => Sys2Proof.Machine.execPktBack s
  | .pktDirUp => Sys2Proof.Machine.execPktDirUp s
  | .pktDirDown => Sys2Proof.Machine.execPktDirDown s
  | .pktDirLeft => Sys2Proof.Machine.execPktDirLeft s
  | .pktDirRight => Sys2Proof.Machine.execPktDirRight s
  | .symLead => Sys2Proof.Machine.execSymLead s
  | .symNotLead => Sys2Proof.Machine.execSymNotLead s
  | .symZero => Sys2Proof.Machine.execSymZero s
  | .symOne => Sys2Proof.Machine.execSymOne s
  | .symBad => Sys2Proof.Machine.execSymBad s
  | .count => Sys2Proof.Machine.execCount s
  | .edge => Sys2Proof.Machine.execEdge s
  | .capture => Sys2Proof.Machine.execCapture s
  | .width => Sys2Proof.Machine.execWidth s
  | .pcdetect => Sys2Proof.Machine.execPcdetect s
  | .pcstart => Sys2Proof.Machine.execPcstart s
  | .dbstart => Sys2Proof.Machine.execDbstart s
  | .dbqual => Sys2Proof.Machine.execDbqual s
  | .dbrel => Sys2Proof.Machine.execDbrel s
  | .dbabort => Sys2Proof.Machine.execDbabort s
  | .ensettle => Sys2Proof.Machine.execEnsettle s
  | .ensample => Sys2Proof.Machine.execEnsample s
  | .qstep k => Sys2Proof.Machine.execQstep k s
  | .enabort => Sys2Proof.Machine.execEnabort s
  | .irarm => Sys2Proof.Machine.execIrarm s
  | .irsync => Sys2Proof.Machine.execIrsync s
  | .irbit => Sys2Proof.Machine.execIrbit s
  | .iraddr => Sys2Proof.Machine.execIraddr s
  | .ircmd => Sys2Proof.Machine.execIrcmd s
  | .irrel => Sys2Proof.Machine.execIrrel s
  | .irtimeout => Sys2Proof.Machine.execIrtimeout s
  | .post => Sys2Proof.Machine.execPost s

end Sys2Proof.Machine
end

