-- ==== Sys2Proof/Machine/Tick.lean ====
section
/-! DEFINITION. The phases of a tick around the host operation (00_scope.md rule R7), and how an instruction word comes
to be the next one the machine runs. -/

namespace Sys2Proof.Machine

open Sys2Proof

/-- `IrStep` (43_ir_decoder.md rule R180): capture, width, then the operation of the state before the tick; a tick
without a capture is the time-out's. -/
def irStep (s : State) : State :=
  let t := widthOp (captureOp s)
  match t.wires.cap with
  | none => irtimeoutOp t
  | some _ =>
    match s.irSt with
    | .idle => irarmOp t
    | .syncLow => irsyncOp t
    | .syncGap => irsyncOp t
    | .bitGap => irbitOp t
    | .bitLow => ircmdOp (iraddrOp (irbitOp t))
    | .rel => irrelOp t

/-- `PchStep` (41_debounce.md rule R131, 45_arithmetic_control.md rule R303): the operation of the state before the
tick. Each of the four runs only when the sequencer steps. -/
def pchStep (s : State) : State :=
  match s.pchSt with
  | .idle => pcstartOp s
  | .dbQual => dbqualOp s
  | .dbRel => dbrelOp s
  | .enSettle => ensettleOp s

/-- Phase P1 of rule R7: the lines are sampled and the edges of `ir_in` found. -/
def beginTick (i : Inputs) (s : State) : State := edgeOp (s.sample i)

/-- Phases P3 to P5 of rule R7, after the host operation of P2: the two engines, the pin-change flag, the posts, the
counter; then the tick's derived values are gone. -/
def finishTick (s : State) : State :=
  (countOp (postOp (pcdetectOp (pchStep (irStep s))))).endTick

/-- The Gray sample of a quadrant, the inverse of `gray2bin` (30_encoding.md rule R88). -/
def bin2gray (q : Quadrant) : BitVec 2 :=
  BitVec.ofBool (q.getLsbD 1) ++ BitVec.ofBool (q.getLsbD 1 ^^ q.getLsbD 0)

/-- The lines as they stood at the previous tick, with the host presenting `op`. -/
def State.stillLines (s : State) (op : HostWord) : Inputs :=
  ⟨false, s.pcPrev.extractLsb' 0 6, s.pcPrev.extractLsb' 6 4, s.irPrev, op⟩

/-- The encoder lines with knob `k` at Gray sample `g` and the other knob as it stands. -/
def withKnobSample (k : Knob) (g : BitVec 2) (enc : BitVec 4) : BitVec 4 :=
  match k with
  | .A => enc.extractLsb' 2 2 ++ g
  | .B => g ++ enc.extractLsb' 0 2

/-- `s` with a word where the next tick runs it. A format-H word is presented on `host_op`. A format-Q word is the
transition of the knob whose settle window the next tick completes. A format-P word is the packet whose twelfth data
pulse the next tick ends. -/
def State.present (s : State) : Encoded → State
  | .host w => { s with inputs := s.stillLines w :: s.inputs }
  | .quad k w =>
    let lines := s.stillLines 0#3
    let enc := withKnobSample k (bin2gray (w.extractLsb' 0 2)) lines.enc
    let knob : EncState := { s.enc k with quadrant := w.extractLsb' 2 2, initialized := true }
    { s.withEnc k knob with
      pcie := true
      pchSt := .enSettle
      enRaw := enc
      enCnt := s.cfg.tSettle - 1
      inputs := { lines with enc := enc } :: s.inputs }
  | .packet w =>
    let low := if w.getLsbD 11 then s.cfg.tOneMin else s.cfg.tZeroMin
    { s with
      icie := true
      ices := true
      irPrev := false
      irSt := .bitLow
      bitIdx := 11#4
      pkt := w &&& 0x7FF#12
      capStart := (s.tcnt + (2 ^ s.cfg.w - low)) % 2 ^ s.cfg.w
      inputs := { s.stillLines 0#3 with irIn := true } :: s.inputs }

end Sys2Proof.Machine
end

