-- ==== Sys2Proof/Machine/Step.lean ====
section
/-! DEFINITION. One step of the machine: one tick (00_scope.md rule R7). -/

namespace Sys2Proof.Machine

open Sys2Proof

/-- `Tick(s, in)` (rule R7) on the next scheduled input lines, or on free ones when none is scheduled. A configuration
that breaks rule R10 is refused. -/
def step (s : State) : Host.Outcome State Fault Refusal :=
  if s.cfg.valid then
    let i := s.takeInputs.1
    let t := s.takeInputs.2
    if i.rst then .next t.resetTick
    else
      match exec (decodeHost i.hostOp) (beginTick i t) with
      | .next u => .next (finishTick u)
      | .fault r => .fault r
      | .refused r => .refused r
  else .refused .badConfiguration

/-- `s` with a table word where the next step runs it. -/
def State.withFetchWord (s : State) (nbits w : Nat) : State :=
  match tableFormat nbits w with
  | .error _ => s
  | .ok f => s.present (f.word w)

end Sys2Proof.Machine
end

