-- ==== Sys2Proof/Safety.lean ====
section
/-! DEFINITION. The terms that claims about the machine use: the invariants of 10_state.md rule R48, sequences of
operations and the operations a tick runs. -/

namespace Sys2Proof.Machine

open Sys2Proof

/-- The constraints of 00_scope.md rule R10, rule R87's conditions on `CMD_MAP` and, DEDUCED (assumption log 22), the
values of rule R9's structural parameters that the spec's registers, ports and formats are written for. -/
abbrev WithinConstraints (c : Config) : Prop :=
  1 ≤ c.tPress ∧ 1 ≤ c.tDebounce ∧ 1 ≤ c.tSettle
    ∧ 1 ≤ c.tTimeout ∧ c.tTimeout < 2 ^ c.w ∧ c.tLeadMax < c.tTimeout
    ∧ c.tZeroMin ≤ c.tZeroMax ∧ c.tZeroMax < c.tOneMin ∧ c.tOneMin ≤ c.tOneMax
    ∧ c.tOneMax < c.tLeadMin ∧ c.tLeadMin ≤ c.tLeadMax
    ∧ (∀ b, c.tDbMax = some b → c.tPress ≤ b) ∧ (∀ b, c.tEnMax = some b → c.tSettle ≤ b)
    ∧ c.rxAddr.toNat < 32
    ∧ c.commandButton 0x12#7 = .volumeUp
    ∧ (∀ cmd, c.commandButton cmd ≠ .selectLeftUp ∧ c.commandButton cmd ≠ .selectRightDown)
    ∧ c.nBits = 12 ∧ c.addrBits = 5 ∧ c.cmdBits = 7 ∧ c.nBtn = 6
    ∧ 1 ≤ c.blipsPerDetent ∧ c.blipsPerDetent ≤ 4

/-- Rule R48 item 1. -/
abbrev EnablesAgree (s : State) : Prop := s.icie = s.pcie

/-- Rule R48 item 2. -/
abbrev EdgeSelectFits (s : State) : Prop :=
  (s.irSt = .syncLow ∨ s.irSt = .bitLow → s.ices = true)
    ∧ (s.irSt = .idle ∨ s.irSt = .syncGap ∨ s.irSt = .bitGap → s.ices = false)

/-- Rule R48 item 3. -/
abbrev RisingArmedWhileLow (s : State) : Prop := s.ices = true ∧ s.icie = true → s.irPrev = false

/-- Rule R48 item 4. -/
abbrev DisabledIsQuiet (s : State) : Prop :=
  s.icie = false → s.irSt = .idle ∧ s.pchSt = .idle ∧ s.pcif = false ∧ s.evt = 0x00#8

/-- Rule R48 item 5. -/
abbrev IrCountBounded (s : State) : Prop :=
  s.irCnt ≤ s.cfg.tTimeout ∧ (s.irSt ≠ .idle → s.irCnt < s.cfg.tTimeout)

/-- Rule R48 item 6. -/
abbrev BitIndexInPacket (s : State) : Prop := s.bitIdx.toNat ≤ 11

/-- Rule R48 item 7. -/
abbrev CandidateIsPressed (s : State) : Prop := s.pchSt = .dbQual ∨ s.pchSt = .dbRel → s.dbCand ≠ 0#6

/-- Rule R48 item 8, for one knob. -/
abbrev KnobAligned (e : EncState) : Prop :=
  -3 ≤ e.blips ∧ e.blips ≤ 3 ∧ (e.initialized = true ∧ e.quadrant = 0#2 → e.blips = 0)

/-- Rule R48 item 9. -/
abbrev KnobsSeededTogether (s : State) : Prop := s.encA.initialized = s.encB.initialized

/-- Rule R48 item 10: `0x00`, a press mask (the encoders' codes are among the masks), or a code `CMD_MAP` produces. -/
abbrev EvtLegal (s : State) : Prop :=
  s.evt.toNat ≤ 0x3F ∨ ∃ cmd : BitVec 7, (s.cfg.commandButton cmd).code = s.evt

/-- The ten items of rule R48. -/
abbrev ReachableFacts (s : State) : Prop :=
  EnablesAgree s ∧ EdgeSelectFits s ∧ RisingArmedWhileLow s ∧ DisabledIsQuiet s ∧ IrCountBounded s
    ∧ BitIndexInPacket s ∧ CandidateIsPressed s ∧ (KnobAligned s.encA ∧ KnobAligned s.encB)
    ∧ KnobsSeededTogether s ∧ EvtLegal s

/-- An unseeded knob's count is still its reset value (rules R43, R162). -/
abbrev UnseededIsZero (e : EncState) : Prop := e.initialized = false → e.blips = 0

/-- A knob's stored count is out by less than a detent (rules R164, R169). -/
abbrev BelowDetent (c : Config) (e : EncState) : Prop :=
  -(c.blipsPerDetent : Int) < e.blips ∧ e.blips < c.blipsPerDetent

/-- The registers of width `W` hold `W` bits (rules R22, R23, R27). -/
abbrev CountersInRange (s : State) : Prop :=
  s.tcnt < 2 ^ s.cfg.w ∧ s.icr < 2 ^ s.cfg.w ∧ s.capStart < 2 ^ s.cfg.w

/-- The machine's invariant: a configuration within rule R10, rule R48, and what rule R48 needs to be inductive. -/
abbrev Invariant (s : State) : Prop :=
  s.cfg.valid = true ∧ ReachableFacts s ∧ (UnseededIsZero s.encA ∧ UnseededIsZero s.encB)
    ∧ (BelowDetent s.cfg s.encA ∧ BelowDetent s.cfg s.encB) ∧ CountersInRange s

/-- While a low pulse is being measured, the counter has moved `ir_cnt + 1` ticks since its falling edge was captured:
the width that `WIDTH` would deliver in the coming tick is the true number of ticks (rule R116). -/
abbrev WidthIsExact (s : State) : Prop :=
  s.irSt = .syncLow ∨ s.irSt = .bitLow → pulseWidth s.cfg s.tcnt s.capStart = s.irCnt + 1

/-- A list of operations, one after the other. -/
def runOps : List Instr → State → Host.Outcome State Fault Refusal
  | [], s => .next s
  | i :: rest, s =>
    match exec i s with
    | .next t => runOps rest t
    | .fault r => .fault r
    | .refused r => .refused r

/-- `cap` of rule R112, as a condition on the state at phase P3. -/
abbrev CaptureDue (s : State) : Prop :=
  s.icie = true ∧ s.wires.hold = false
    ∧ ((s.ices = false ∧ s.wires.fall = true) ∨ (s.ices = true ∧ s.wires.rise = true))

/-- The decoder's operations of a tick (43_ir_decoder.md rule R180). -/
def irOps (s : State) : List Instr :=
  if CaptureDue s then
    match s.irSt with
    | .idle => [.irarm]
    | .syncLow => [.irsync]
    | .syncGap => [.irsync]
    | .bitGap => [.irbit]
    | .bitLow => [.irbit, .iraddr, .ircmd]
    | .rel => [.irrel]
  else [.irtimeout]

/-- The sequencer's operation of a tick (45_arithmetic_control.md rule R303). -/
def pchOps (s : State) : List Instr :=
  match s.pchSt with
  | .idle => [.pcstart]
  | .dbQual => [.dbqual]
  | .dbRel => [.dbrel]
  | .enSettle => [.ensettle]

/-- Every internal operation of phases P3 to P5, in order (00_scope.md rule R7). -/
def tickOps (s : State) : List Instr :=
  [.capture, .width] ++ irOps s ++ pchOps s ++ [.pcdetect, .post, .count]

/-- The entry of the settle window (42_quadrature.md rule R160), as an outcome: with `T_SETTLE = 1` the sample is taken
in the same tick. -/
def settleEntered (s : State) : Host.Outcome State Fault Refusal :=
  if 1 < s.cfg.tSettle then
    .next { s with pchSt := .enSettle, enRaw := s.wires.inp.enc, enCnt := 1, enTot := 0 }
  else
    exec .ensample { s with pchSt := .enSettle, enRaw := s.wires.inp.enc, enCnt := 1, enTot := 0 }

/-- The symbol of a data bit (30_encoding.md rule R84). -/
def bitSymbol (b : Bool) : Instr := if b then .symOne else .symZero

/-- The data pulses of a frame as symbols: bit `i` of the packet is received `i`-th, each in `IR_BIT_LOW`. -/
def receiveBits : List Bool → State → Host.Outcome State Fault Refusal
  | [], s => .next s
  | b :: rest, s =>
    match exec (bitSymbol b) { s with irSt := .bitLow } with
    | .next t => receiveBits rest t
    | .fault r => .fault r
    | .refused r => .refused r

/-- The machine runs: a step answers a next state. -/
def Runs (s : State) : Prop := ∃ t, step s = .next t

end Sys2Proof.Machine
end

