-- ==== Sys2Proof/Certificates/Slice0/Obligations.lean ====
section
/-! DEFINITION. The statements. Where a statement writes out a next state, every register it does not name is left as
it was: that is its frame. The block has no addressable memory (20_memory.md rule R60), so no statement speaks of one.
The fields `inputs`, `drawn`, `wires` and `out` are the model's own (assumption log 2, 8, 9): the lines of the coming
ticks, the values a tick hands from one operation to the next, and its outputs. -/

open Sys2Proof Sys2Proof.Machine

/-- Words written out bit by bit from 30_encoding.md rules R81, R83 and R90 decode to the operations they stand for. The
last four clauses rest on the model's choice of bytes for a table word (assumption log 14). -/
def Obligations.TableWordsDecode : Prop :=
  decode (.host 0b010#3) = .pop ∧ decode (.host 0b100#3) = .isany ∧ decode (.host 0b110#3) = .reserved6
    ∧ decode (.quad .A 0b0110#4) = .qFwd12 .A ∧ decode (.quad .B 0b0100#4) = .qRev10 .B
    ∧ decode (.packet 0b000010010010#12) = .pktVolumeUp ∧ decode (.packet 0b000100010010#12) = .pkt 2#5 0x12#7
    ∧ decodeTableWord 8 3 = some .peek ∧ decodeTableWord 8 12 = some (.qFwd30 .A)
    ∧ decodeTableWord 16 0x0B3 = some .pktDirRight ∧ decodeTableWord 16 0x1000 = none

/-- Every well-formed instruction that has a word is what its word decodes to. -/
def Obligations.DecodeInvertsEncode : Prop :=
  ∀ (i : Instr) (e : Encoded), i.wf = true → encode i = some e → decode e = i

/-- Every word of a format decodes to a well-formed instruction whose word it is: no two words mean the same, and no
word is illegal. -/
def Obligations.EncodeInvertsDecode : Prop :=
  ∀ e : Encoded, (decode e).wf = true ∧ encode (decode e) = some e

/-- The classes of format S by the parameters of their ranges, each closed at both ends, and with the numbers of the
reference ranges (30_encoding.md rule R85). `ONE` needs the two bit ranges disjoint, as rule R10 has them; every other
class is stated for any parameters. -/
def Obligations.PulseWidthsAreClassified : Prop :=
  (∀ (c : Config) (w : Nat),
    (decodeSyncPulse c w = .symLead ↔ c.tLeadMin ≤ w ∧ w ≤ c.tLeadMax)
    ∧ (decodeSyncPulse c w = .symNotLead ↔ w < c.tLeadMin ∨ c.tLeadMax < w)
    ∧ (decodeDataPulse c w = .symZero ↔ c.tZeroMin ≤ w ∧ w ≤ c.tZeroMax)
    ∧ (c.tZeroMax < c.tOneMin → (decodeDataPulse c w = .symOne ↔ c.tOneMin ≤ w ∧ w ≤ c.tOneMax))
    ∧ (decodeDataPulse c w = .symBad ↔
        ¬ (c.tZeroMin ≤ w ∧ w ≤ c.tZeroMax) ∧ ¬ (c.tOneMin ≤ w ∧ w ≤ c.tOneMax)))
  ∧ ∀ w : Nat,
    (decodeSyncPulse Config.reference w = .symLead ↔ 2100 ≤ w ∧ w ≤ 2700)
    ∧ (decodeSyncPulse Config.reference w = .symNotLead ↔ w < 2100 ∨ 2700 < w)
    ∧ (decodeDataPulse Config.reference w = .symZero ↔ 450 ≤ w ∧ w ≤ 749)
    ∧ (decodeDataPulse Config.reference w = .symOne ↔ 900 ≤ w ∧ w ≤ 1499)
    ∧ (decodeDataPulse Config.reference w = .symBad ↔ w < 450 ∨ (750 ≤ w ∧ w ≤ 899) ∨ 1500 ≤ w)

/-- A step without reset samples the scheduled lines, runs the operation `host_op` decodes to, then the engines, the
posts and the counter (00_scope.md rule R7). That the lines come from a schedule is the model's choice (assumption log
2). -/
def Obligations.StepRunsTheDecodedInstruction : Prop :=
  ∀ (s : State) (i : Inputs) (rest : List Inputs),
    s.cfg.valid = true → s.inputs = i :: rest → i.rst = false →
    step s = (match exec (decode (.host i.hostOp)) (beginTick i { s with inputs := rest }) with
      | .next u => .next (finishTick u)
      | .fault r => .fault r
      | .refused r => .refused r)

/-- What follows the host operation in a tick is its internal operations run one after the other: capture, width, the
decoder's operation of its state, the sequencer's operation of its state, the pin-change flag, the posts, the counter
(00_scope.md rule R7, 43_ir_decoder.md rule R180, 45_arithmetic_control.md rule R303). That they run one after the
other, each on what the earlier ones left, where R7 has a phase read the state before the tick, is the model's reading
(assumption log 1); so are the one operation `PCDETECT` for its parts in two phases (log 11) and the packet handed from
`IRBIT` to `IRADDR` and `IRCMD` on a wire (log 17). -/
def Obligations.TickRunsItsOperations : Prop :=
  ∀ u : State, ∃ v, runOps (tickOps u) u = .next v ∧ finishTick u = { v with wires := Wires.idle }

/-- A tick with `rst = 1` leaves `ResetState`, whatever the state and the host operation (70_reset_and_hazards.md rule
R270). The values of `TCNT`, `ICR`, `cap_start`, `ir_prev`, `pc_prev` and of the two quadrants are the model's choice
(assumption log 7): the spec's table lists them and its entry 10 of 93_implementation_defined.md allows any. -/
def Obligations.ResetTickLeavesResetState : Prop :=
  ∀ (s : State) (i : Inputs) (rest : List Inputs),
    s.cfg.valid = true → s.inputs = i :: rest → i.rst = true →
    ∃ t, step s = .next t
      ∧ t.tcnt = 0 ∧ t.icr = 0 ∧ t.ices = false ∧ t.icie = false ∧ t.irPrev = true ∧ t.capStart = 0
      ∧ t.irSt = .idle ∧ t.irCnt = 0 ∧ t.bitIdx = 0#4 ∧ t.pkt = 0x000#12
      ∧ t.pcie = false ∧ t.pcif = false ∧ t.pcPrev = 0x03F#10 ∧ t.pchSt = .idle
      ∧ t.dbCand = 0#6 ∧ t.dbCnt = 0 ∧ t.dbTot = 0 ∧ t.enRaw = 0#4 ∧ t.enCnt = 0 ∧ t.enTot = 0
      ∧ t.encA = ⟨0#2, 0, false⟩ ∧ t.encB = ⟨0#2, 0, false⟩ ∧ t.evt = 0x00#8
      ∧ t.out.hostRsp = 0x00#8 ∧ t.evtPending = false

/-- A configuration is refused if it breaks a constraint of 00_scope.md rule R10 or a condition of 30_encoding.md rule
R87 on `CMD_MAP` (that `CMD_MAP` is tested with R10 is assumption log 5), and else it runs. The last six conditions, on
the structural parameters of rule R9, are read from the widths of the registers, ports and formats (assumption log 22).
-/
def Obligations.BadConfigurationIsRefused : Prop :=
  ∀ s : State,
    (WithinConstraints s.cfg → Runs s) ∧ (¬ WithinConstraints s.cfg → step s = .refused .badConfiguration)

/-- Every operation completes in every state, and so does every tick whose parameters are within rule R10
(60_exceptions.md rule R240). Each register written by one unit alone is written by its operation and by no other
(10_state.md rules R22 to R27, R32 to R34, R45; 40_capture.md rule R113). That an operation also completes where its
rule does not select it, leaving the state as it was, is the model's choice (assumption log 12). -/
def Obligations.EveryOperationCompletes : Prop :=
  (∀ (i : Instr) (s : State), ∃ t, exec i s = .next t
    ∧ t.cfg = s.cfg ∧ t.inputs = s.inputs ∧ t.drawn = s.drawn
    ∧ (i ≠ .count → t.tcnt = s.tcnt)
    ∧ (i ≠ .edge → t.irPrev = s.irPrev)
    ∧ (i ≠ .capture → t.icr = s.icr ∧ t.capStart = s.capStart)
    ∧ (i ≠ .capture → i ≠ .irtimeout → i ≠ .init → t.ices = s.ices)
    ∧ (i ≠ .init → t.icie = s.icie ∧ t.pcie = s.pcie)
    ∧ (i ≠ .pcdetect → t.pcPrev = s.pcPrev)
    ∧ (i ≠ .pcdetect → i ≠ .init → t.pcif = s.pcif)
    ∧ (i ≠ .pop → i ≠ .post → t.evt = s.evt))
  ∧ ∀ s : State, s.cfg.valid = true → Runs s

/-- Nothing reads the outputs or the wires of an earlier tick, a tick leaves no wire asserted, and no operation changes
a parameter (10_state.md rule R47, 43_ir_decoder.md rule R194). -/
def Obligations.TickValuesDoNotSurvive : Prop :=
  ∀ (s : State) (o : Outputs) (w : Wires),
    step { s with out := o, wires := w } = step s
      ∧ ∀ t, step s = .next t → t.wires = Wires.idle ∧ t.cfg = s.cfg

/-- `POP` answers `EVT` and clears it; `PEEK` answers it and writes nothing (44_mailbox_host.md rules R224, R225). -/
def Obligations.PopClearsAndPeekDoesNot : Prop :=
  ∀ s : State,
    exec .pop s = .next { s with out := { s.out with hostRsp := s.evt }, evt := 0x00#8 }
      ∧ exec .peek s = .next { s with out := { s.out with hostRsp := s.evt } }

/-- `NOP` and the three reserved codes answer `0x00` and write nothing (44_mailbox_host.md rules R222, R227). -/
def Obligations.NopAndReservedCodesCallNothing : Prop :=
  ∀ (s : State) (i : Instr), i ∈ [Instr.nop, .reserved5, .reserved6, .reserved7] →
    exec i s = .next { s with out := { s.out with hostRsp := 0x00#8 } }

/-- `INIT` enables both triggers, re-arms the capture unit, idles both engines and keeps them from stepping in its
tick; it writes nothing else (44_mailbox_host.md rule R223). -/
def Obligations.InitEnablesAndRearms : Prop :=
  ∀ s : State,
    exec .init s = .next { s with
      out := { s.out with hostRsp := 0x00#8 }
      pcie := true
      icie := true
      ices := false
      irSt := .idle
      pcif := false
      pchSt := .idle
      wires := { s.wires with hold := true } }

/-- `ISANY` answers from this tick's button lines and the decoder's state, and writes nothing (44_mailbox_host.md rule
R226). -/
def Obligations.IsanyReadsLinesAndDecoder : Prop :=
  ∀ s : State,
    exec .isany s = .next { s with out := { s.out with
      hostRsp := if (~~~s.wires.inp.btnN &&& 0x3F#6) ≠ 0#6 ∨ s.irSt ≠ .idle then 0x01#8 else 0x00#8 } }

/-- A tick of `PEEK`, `ISANY` or a reserved code is, but for its response, the tick of `NOP` on the same lines. -/
def Obligations.OtherHostOperationsRunTheSameTick : Prop :=
  ∀ (s : State) (i : Inputs) (rest : List Inputs) (op : HostWord),
    s.cfg.valid = true → i.rst = false → op ∈ [0b011#3, 0b100#3, 0b101#3, 0b110#3, 0b111#3] →
    ∃ t, step { s with inputs := { i with hostOp := 0b000#3 } :: rest } = .next t
      ∧ step { s with inputs := { i with hostOp := op } :: rest } = .next { t with out := { t.out with
          hostRsp :=
            if op = 0b011#3 then s.evt
            else if op = 0b100#3 ∧ ((~~~i.btnN &&& 0x3F#6) ≠ 0#6 ∨ s.irSt ≠ .idle) then 0x01#8
            else 0x00#8 } }

/-- A tick of `POP` answers the old `EVT` and otherwise is the tick of `NOP` on an empty mailbox: a post of the same
tick survives (44_mailbox_host.md rule R229). -/
def Obligations.PopAndPostLoseNothing : Prop :=
  ∀ (s : State) (i : Inputs) (rest : List Inputs),
    s.cfg.valid = true → i.rst = false →
    ∃ t, step { s with evt := 0x00#8, inputs := { i with hostOp := 0b000#3 } :: rest } = .next t
      ∧ step { s with inputs := { i with hostOp := 0b010#3 } :: rest }
          = .next { t with out := { t.out with hostRsp := s.evt } }

/-- The whole tick of an `INIT`: no engine steps, nothing is posted, a change of the pins does not set `PCIF`, and
`TCNT`, `pc_prev`, `ir_prev` run (44_mailbox_host.md rule R223). -/
def Obligations.InitTickRunsNoEngine : Prop :=
  ∀ (s : State) (i : Inputs) (rest : List Inputs),
    s.cfg.valid = true → s.inputs = i :: rest → i.rst = false → i.hostOp = 0b001#3 →
    step s = .next { s with
      inputs := rest
      wires := Wires.idle
      out := ⟨0x00#8, []⟩
      pcie := true
      icie := true
      ices := false
      irSt := .idle
      pcif := false
      pchSt := .idle
      irPrev := i.irIn
      pcPrev := i.enc ++ i.btnN
      tcnt := (s.tcnt + 1) % 2 ^ s.cfg.w }

/-- Before `INIT`, `TCNT`, `pc_prev` and `ir_prev` run and nothing else moves; `POP` and `PEEK` answer `0x00`, `ISANY`
the raw button lines (70_reset_and_hazards.md rule R271). -/
def Obligations.BeforeInitNothingMoves : Prop :=
  ∀ (s : State) (i : Inputs) (rest : List Inputs),
    s.cfg.valid = true → s.inputs = i :: rest → i.rst = false → i.hostOp ≠ 0b001#3 →
    s.pcie = false → s.icie = false → s.irSt = .idle → s.evt = 0x00#8 →
    step s = .next { s with
      inputs := rest
      wires := Wires.idle
      out := ⟨if i.hostOp = 0b100#3 ∧ (~~~i.btnN &&& 0x3F#6) ≠ 0#6 then 0x01#8 else 0x00#8, []⟩
      irPrev := i.irIn
      pcPrev := i.enc ++ i.btnN
      tcnt := (s.tcnt + 1) % 2 ^ s.cfg.w }

/-- `POST` keeps the last present post in the order db, A, B, ir, and the old value if there is none
(44_mailbox_host.md rule R221). -/
def Obligations.LastPresentPostIsKept : Prop :=
  ∀ s : State,
    exec .post s = .next { s with
      evt := s.wires.posts.ir.getD (s.wires.posts.B.getD (s.wires.posts.A.getD (s.wires.posts.db.getD s.evt))) }

/-- `EVT` changes only in a tick of `POP`, of a release or settle window that the sequencer may end in it, or of the
rising edge of a packet's twelfth data pulse (44_mailbox_host.md rule R220). -/
def Obligations.EvtChangesOnlyByPopOrPost : Prop :=
  ∀ (s t : State) (i : Inputs) (rest : List Inputs),
    s.inputs = i :: rest → i.rst = false → i.hostOp ≠ 0b010#3 → step s = .next t → t.evt ≠ s.evt →
    i.hostOp ≠ 0b001#3
      ∧ ((s.pcie = true ∧ (s.pchSt = .dbRel ∨ s.pchSt = .enSettle ∨ s.cfg.tSettle ≤ 1))
        ∨ (s.icie = true ∧ s.irSt = .bitLow ∧ s.bitIdx = 11#4 ∧ s.irPrev = false ∧ i.irIn = true))

/-- The output `evt_pending` says whether `EVT` holds an event (44_mailbox_host.md rule R228). A pending event may be
overwritten by a newer one, but only `POP` and reset empty the mailbox: `None` is never posted (rule R220). -/
def Obligations.PendingEventOutlivesAllButPop : Prop :=
  (∀ s : State, s.evtPending = true ↔ s.evt ≠ 0x00#8)
  ∧ ∀ (s t : State) (i : Inputs) (rest : List Inputs),
    Invariant s → s.inputs = i :: rest → i.rst = false → i.hostOp ≠ 0b010#3 → s.evtPending = true →
    step s = .next t → t.evtPending = true

/-- `COUNT` (40_capture.md rule R110) counts modulo `2^W`, and every tick but a reset tick counts once, whatever else
happens in it. -/
def Obligations.CountWraps : Prop :=
  (∀ s : State, exec .count s = .next { s with tcnt := (s.tcnt + 1) % 2 ^ s.cfg.w })
  ∧ ∀ (s t : State) (i : Inputs) (rest : List Inputs), s.inputs = i :: rest → i.rst = false → step s = .next t →
    t.tcnt = (s.tcnt + 1) % 2 ^ s.cfg.w

/-- `EDGE` (40_capture.md rule R111): the two edges, at most one of them, and the previous sample, which every tick but
a reset tick writes, enabled or not. -/
def Obligations.EdgeComparesWithThePreviousSample : Prop :=
  (∀ s : State, ∃ t, exec .edge s = .next t
    ∧ t = { s with
        wires := { s.wires with fall := t.wires.fall, rise := t.wires.rise }
        irPrev := s.wires.inp.irIn }
    ∧ (t.wires.fall = true ↔ s.irPrev = true ∧ s.wires.inp.irIn = false)
    ∧ (t.wires.rise = true ↔ s.irPrev = false ∧ s.wires.inp.irIn = true)
    ∧ ¬ (t.wires.fall = true ∧ t.wires.rise = true))
  ∧ ∀ (s t : State) (i : Inputs) (rest : List Inputs), s.inputs = i :: rest → i.rst = false → step s = .next t →
    t.irPrev = i.irIn

/-- `CAPTURE` (40_capture.md rules R112, R113): the selected edge latches the counter and toggles the edge select;
otherwise nothing is latched. -/
def Obligations.CaptureLatchesTheSelectedEdge : Prop :=
  ∀ s : State,
    (s.icie = true → s.wires.hold = false → s.ices = false → s.wires.fall = true →
      exec .capture s = .next { s with
        icr := s.tcnt, capStart := s.tcnt, ices := true, wires := { s.wires with cap := some .falling } })
    ∧ (s.icie = true → s.wires.hold = false → s.ices = true → s.wires.rise = true →
      exec .capture s = .next { s with icr := s.tcnt, ices := false, wires := { s.wires with cap := some .rising } })
    ∧ (¬ CaptureDue s → exec .capture s = .next { s with wires := { s.wires with cap := none } })

/-- `WIDTH` (40_capture.md rule R114): at a rising-edge capture, the difference of the counter values modulo `2^W`; no
width otherwise. -/
def Obligations.WidthIsTheModularDifference : Prop :=
  ∀ s : State,
    (s.wires.cap = some .rising →
      ∃ w : Nat, exec .width s = .next { s with wires := { s.wires with width := some w } }
        ∧ (w : Int) = ((s.tcnt : Int) - (s.capStart : Int)) % ((2 : Int) ^ s.cfg.w))
    ∧ (s.wires.cap ≠ some .rising → exec .width s = .next { s with wires := { s.wires with width := none } })

/-- Every tick keeps: the width a rising edge would be measured at is the number of ticks since the falling edge
(40_capture.md rule R116). -/
def Obligations.MeasuredWidthIsTheTrueTickCount : Prop :=
  ∀ s t : State, Invariant s → WidthIsExact s → step s = .next t → WidthIsExact t

/-- Two runs that differ only in the reset value of `TCNT` give the same responses and the same `EVT` (40_capture.md
rule R116). -/
def Obligations.CounterOffsetIsUnobservable : Prop :=
  ∀ (c : Config) (ins : List Inputs) (n k : Nat) (t : State),
    Sys2Proof.core.run n { State.reset with cfg := c, inputs := ins } = .next t →
    ∃ t' : State, Sys2Proof.core.run n { State.reset with cfg := c, inputs := ins, tcnt := k } = .next t'
      ∧ t'.out = t.out ∧ t'.evt = t.evt

/-- `PCDETECT` (41_debounce.md rule R130): a set wins over a clear, `INIT` clears the flag whatever the pins do, and the
pins are remembered, by every tick but a reset tick, enabled or not. -/
def Obligations.PinChangeSetWinsOverClear : Prop :=
  (∀ s : State, ∃ t, exec .pcdetect s = .next t
    ∧ t = { s with
        wires := { s.wires with chg := t.wires.chg }
        pcif := t.pcif
        pcPrev := s.wires.inp.enc ++ s.wires.inp.btnN }
    ∧ (t.wires.chg = true ↔ s.wires.inp.enc ++ s.wires.inp.btnN ≠ s.pcPrev)
    ∧ (s.wires.hold = false →
        (t.pcif = true ↔ (s.pcif = true ∧ s.wires.clr = false) ∨ (s.pcie = true ∧ t.wires.chg = true)))
    ∧ (s.wires.hold = true → t.pcif = false))
  ∧ ∀ (s t : State) (i : Inputs) (rest : List Inputs), s.inputs = i :: rest → i.rst = false → step s = .next t →
    t.pcPrev = i.enc ++ i.btnN ∧ (i.hostOp = 0b001#3 → t.pcif = false)

/-- `PCSTART` (41_debounce.md rules R132, R134): a run consumes the flag and enters the Debounce Engine if a button
reads pressed, the settle window if none does; without the flag nothing happens, and
nothing in another state (assumption log 12). -/
def Obligations.PcstartStartsAHandlerRun : Prop :=
  ∀ s : State,
    (s.pcie = true → s.wires.hold = false → s.pchSt = .idle → s.pcif = true →
      ((~~~s.wires.inp.btnN &&& 0x3F#6) ≠ 0#6 → 1 < s.cfg.tPress →
        exec .pcstart s = .next { s with
          wires := { s.wires with clr := true }, pchSt := .dbQual
          dbCand := ~~~s.wires.inp.btnN &&& 0x3F#6, dbCnt := 1, dbTot := 0 })
      ∧ ((~~~s.wires.inp.btnN &&& 0x3F#6) ≠ 0#6 → s.cfg.tPress ≤ 1 →
        exec .pcstart s = .next { s with
          wires := { s.wires with clr := true }, pchSt := .dbRel
          dbCand := ~~~s.wires.inp.btnN &&& 0x3F#6, dbCnt := 0, dbTot := 0 })
      ∧ ((~~~s.wires.inp.btnN &&& 0x3F#6) = 0#6 →
        exec .pcstart s = settleEntered { s with wires := { s.wires with clr := true } }))
    ∧ (¬ (s.pcie = true ∧ s.wires.hold = false ∧ s.pchSt = .idle ∧ s.pcif = true) → exec .pcstart s = .next s)

/-- `DBSTART` (41_debounce.md rule R134); that it does nothing on an empty mask is the model's choice (assumption log
12). -/
def Obligations.DbstartEntersTheEngine : Prop :=
  ∀ s : State,
    ((~~~s.wires.inp.btnN &&& 0x3F#6) ≠ 0#6 → 1 < s.cfg.tPress →
      exec .dbstart s = .next { s with
        pchSt := .dbQual, dbCand := ~~~s.wires.inp.btnN &&& 0x3F#6, dbCnt := 1, dbTot := 0 })
    ∧ ((~~~s.wires.inp.btnN &&& 0x3F#6) ≠ 0#6 → s.cfg.tPress ≤ 1 →
      exec .dbstart s = .next { s with
        pchSt := .dbRel, dbCand := ~~~s.wires.inp.btnN &&& 0x3F#6, dbCnt := 0, dbTot := 0 })
    ∧ ((~~~s.wires.inp.btnN &&& 0x3F#6) = 0#6 → exec .dbstart s = .next s)

/-- `DBQUAL` (41_debounce.md rule R135): accept after `T_PRESS` equal reads, reject on a release, restart on another
non-zero mask, abort at the bound; acceptance is tested before the bound. -/
def Obligations.DbqualQualifiesThePress : Prop :=
  ∀ s : State, s.pcie = true → s.wires.hold = false → s.pchSt = .dbQual →
    ((~~~s.wires.inp.btnN &&& 0x3F#6) = s.dbCand → s.cfg.tPress ≤ s.dbCnt + 1 →
      exec .dbqual s = .next { s with dbTot := s.dbTot + 1, pchSt := .dbRel, dbCnt := 0 })
    ∧ ((~~~s.wires.inp.btnN &&& 0x3F#6) = s.dbCand → s.dbCnt + 1 < s.cfg.tPress →
      (∀ b, s.cfg.tDbMax = some b → s.dbTot + 1 < b) →
      exec .dbqual s = .next { s with dbTot := s.dbTot + 1, dbCnt := s.dbCnt + 1 })
    ∧ ((~~~s.wires.inp.btnN &&& 0x3F#6) = s.dbCand → s.dbCnt + 1 < s.cfg.tPress →
      (∃ b, s.cfg.tDbMax = some b ∧ b ≤ s.dbTot + 1) →
      exec .dbqual s = exec .dbabort { s with dbTot := s.dbTot + 1, dbCnt := s.dbCnt + 1 })
    ∧ ((~~~s.wires.inp.btnN &&& 0x3F#6) ≠ s.dbCand → (~~~s.wires.inp.btnN &&& 0x3F#6) = 0#6 →
      exec .dbqual s = settleEntered { s with
        dbTot := s.dbTot + 1
        out := { s.out with rejects := s.out.rejects ++ [.shortPress] }
        wires := { s.wires with clr := true } })
    ∧ ((~~~s.wires.inp.btnN &&& 0x3F#6) ≠ s.dbCand → (~~~s.wires.inp.btnN &&& 0x3F#6) ≠ 0#6 →
      (∀ b, s.cfg.tDbMax = some b → s.dbTot + 1 < b) →
      exec .dbqual s = .next { s with
        dbTot := s.dbTot + 1, dbCand := ~~~s.wires.inp.btnN &&& 0x3F#6, dbCnt := 1 })
    ∧ ((~~~s.wires.inp.btnN &&& 0x3F#6) ≠ s.dbCand → (~~~s.wires.inp.btnN &&& 0x3F#6) ≠ 0#6 →
      (∃ b, s.cfg.tDbMax = some b ∧ b ≤ s.dbTot + 1) →
      exec .dbqual s = exec .dbabort { s with
        dbTot := s.dbTot + 1, dbCand := ~~~s.wires.inp.btnN &&& 0x3F#6, dbCnt := 1 })

/-- `DBREL` (41_debounce.md rule R136): a pressed read restarts the window, `T_DEBOUNCE` released reads post the
latched mask, the bound aborts; confirmation is tested before the bound. -/
def Obligations.DbrelWaitsForTheRelease : Prop :=
  ∀ s : State, s.pcie = true → s.wires.hold = false → s.pchSt = .dbRel → 1 ≤ s.cfg.tDebounce →
    ((~~~s.wires.inp.btnN &&& 0x3F#6) ≠ 0#6 → (∀ b, s.cfg.tDbMax = some b → s.dbTot + 1 < b) →
      exec .dbrel s = .next { s with dbTot := s.dbTot + 1, dbCnt := 0 })
    ∧ ((~~~s.wires.inp.btnN &&& 0x3F#6) ≠ 0#6 → (∃ b, s.cfg.tDbMax = some b ∧ b ≤ s.dbTot + 1) →
      exec .dbrel s = exec .dbabort { s with dbTot := s.dbTot + 1, dbCnt := 0 })
    ∧ ((~~~s.wires.inp.btnN &&& 0x3F#6) = 0#6 → s.dbCnt + 1 < s.cfg.tDebounce →
      (∀ b, s.cfg.tDbMax = some b → s.dbTot + 1 < b) →
      exec .dbrel s = .next { s with dbTot := s.dbTot + 1, dbCnt := s.dbCnt + 1 })
    ∧ ((~~~s.wires.inp.btnN &&& 0x3F#6) = 0#6 → s.dbCnt + 1 < s.cfg.tDebounce →
      (∃ b, s.cfg.tDbMax = some b ∧ b ≤ s.dbTot + 1) →
      exec .dbrel s = exec .dbabort { s with dbTot := s.dbTot + 1, dbCnt := s.dbCnt + 1 })
    ∧ ((~~~s.wires.inp.btnN &&& 0x3F#6) = 0#6 → s.cfg.tDebounce ≤ s.dbCnt + 1 →
      exec .dbrel s = settleEntered { s with
        dbTot := s.dbTot + 1
        dbCnt := s.dbCnt + 1
        wires := { s.wires with
          clr := true, posts := { s.wires.posts with db := some (s.dbCand.setWidth 8) } } })

/-- `DBABORT` (41_debounce.md rule R137) drops the press and goes on to the settle window; `ENABORT` (42_quadrature.md
rule R167) returns to idle without a sample. -/
def Obligations.BoundsAbortWithoutAnEvent : Prop :=
  ∀ s : State,
    exec .dbabort s = settleEntered { s with
        out := { s.out with rejects := s.out.rejects ++ [.debounceBound] }
        wires := { s.wires with clr := true } }
    ∧ exec .enabort s = .next { s with
        out := { s.out with rejects := s.out.rejects ++ [.settleBound] }
        pchSt := .idle }

/-- The release wait is entered only when a non-zero mask has been read unchanged for `T_PRESS` ticks, and that mask is
the latched one (41_debounce.md rules R134, R135, R142). The premise is item 7 of 10_state.md rule R48, which
`StepKeepsTheInvariant` says every step keeps. -/
def Obligations.PressIsAcceptedOnlyAfterAStableRead : Prop :=
  ∀ (s t : State) (i : Inputs) (rest : List Inputs),
    CandidateIsPressed s → s.inputs = i :: rest → i.rst = false → step s = .next t → s.pchSt ≠ .dbRel →
    t.pchSt = .dbRel →
    s.pcie = true ∧ i.hostOp ≠ 0b001#3 ∧ t.dbCand = (~~~i.btnN &&& 0x3F#6) ∧ (~~~i.btnN &&& 0x3F#6) ≠ 0#6
      ∧ ((s.pchSt = .dbQual ∧ s.dbCand = (~~~i.btnN &&& 0x3F#6) ∧ s.cfg.tPress ≤ s.dbCnt + 1)
        ∨ (s.pchSt = .idle ∧ s.pcif = true ∧ s.cfg.tPress ≤ 1))

/-- In the release wait, with all lines released and no other event, exactly the tick that completes `T_DEBOUNCE`
released reads puts the latched mask into the mailbox (41_debounce.md rule R136). -/
def Obligations.ConfirmedReleasePostsTheLatchedMask : Prop :=
  ∀ (s : State) (ins rest : List Inputs),
    s.cfg.valid = true → 1 < s.cfg.tSettle → s.pcie = true → s.pchSt = .dbRel → s.dbCnt < s.cfg.tDebounce →
    (∀ b, s.cfg.tDbMax = some b → s.dbTot + (s.cfg.tDebounce - s.dbCnt) ≤ b) →
    s.inputs = ins ++ rest → ins.length = s.cfg.tDebounce - s.dbCnt →
    (∀ i ∈ ins, i.rst = false ∧ i.hostOp = 0b000#3 ∧ i.btnN = 0x3F#6 ∧ i.irIn = s.irPrev) →
    (∃ t : State, Sys2Proof.core.run (s.cfg.tDebounce - s.dbCnt) s = .next t
      ∧ t.evt = s.dbCand.setWidth 8 ∧ t.pchSt = .enSettle ∧ t.inputs = rest)
    ∧ ∀ k < s.cfg.tDebounce - s.dbCnt, ∃ u : State, Sys2Proof.core.run k s = .next u
      ∧ u.evt = s.evt ∧ u.pchSt = .dbRel

/-- The forward words (42_quadrature.md rules R163 to R165) count a blip up; at `+BLIPS_PER_DETENT` they post the knob's
increase and store 0; at quadrant 0 they store 0. That the word's own `old` decides, whatever quadrant is stored, is the
model's choice (assumption log 13). -/
def Obligations.ForwardWordsCountUp : Prop :=
  ∀ (k : Knob) (s : State) (i : Instr) (new : Quadrant),
    (i, new) ∈ [(Instr.qFwd01 k, 1#2), (.qFwd12 k, 2#2), (.qFwd23 k, 3#2), (.qFwd30 k, 0#2)] →
    (s.enc k).initialized = true → BelowDetent s.cfg (s.enc k) →
    ((s.enc k).blips + 1 = s.cfg.blipsPerDetent →
      exec i s = .next ((s.withEnc k ⟨new, 0, true⟩).withPost (knobPort k) (if k = .A then 0x04#8 else 0x20#8)))
    ∧ ((s.enc k).blips + 1 ≠ s.cfg.blipsPerDetent →
      exec i s = .next (s.withEnc k ⟨new, if new = 0#2 then 0 else (s.enc k).blips + 1, true⟩))

/-- The reverse words (42_quadrature.md rules R163 to R165) count a blip down; at `-BLIPS_PER_DETENT` they post the
knob's decrease and store 0; at quadrant 0 they store 0. That the word's own `old` decides, whatever quadrant is stored,
is the model's choice (assumption log 13). -/
def Obligations.ReverseWordsCountDown : Prop :=
  ∀ (k : Knob) (s : State) (i : Instr) (new : Quadrant),
    (i, new) ∈ [(Instr.qRev03 k, 3#2), (.qRev10 k, 0#2), (.qRev21 k, 1#2), (.qRev32 k, 2#2)] →
    (s.enc k).initialized = true → BelowDetent s.cfg (s.enc k) →
    ((s.enc k).blips - 1 = -(s.cfg.blipsPerDetent : Int) →
      exec i s = .next ((s.withEnc k ⟨new, 0, true⟩).withPost (knobPort k) (if k = .A then 0x08#8 else 0x10#8)))
    ∧ ((s.enc k).blips - 1 ≠ -(s.cfg.blipsPerDetent : Int) →
      exec i s = .next (s.withEnc k ⟨new, if new = 0#2 then 0 else (s.enc k).blips - 1, true⟩))

/-- The words of no movement and of a missed edge (42_quadrature.md rules R163, R165) post nothing and count nothing;
the quadrant is stored, and at quadrant 0 the count is re-zeroed. That the word's own `old` decides, whatever quadrant
is stored, is the model's choice (assumption log 13). -/
def Obligations.SameAndSkipWordsCountNothing : Prop :=
  ∀ (k : Knob) (s : State) (i : Instr) (new : Quadrant),
    (i, new) ∈ [(Instr.qSame00 k, 0#2), (.qSame11 k, 1#2), (.qSame22 k, 2#2), (.qSame33 k, 3#2),
      (.qSkip02 k, 2#2), (.qSkip13 k, 3#2), (.qSkip20 k, 0#2), (.qSkip31 k, 1#2)] →
    (s.enc k).initialized = true → BelowDetent s.cfg (s.enc k) →
    exec i s = .next (s.withEnc k ⟨new, if new = 0#2 then 0 else (s.enc k).blips, true⟩)

/-- The first sample of a knob stores its quadrant, marks it initialised, leaves the count and posts nothing, whatever
the word (42_quadrature.md rule R162; that a word seeds whatever its `old` says is the model's choice, assumption log
13). -/
def Obligations.FirstSampleSeedsTheKnob : Prop :=
  ∀ (k : Knob) (s : State), (s.enc k).initialized = false →
    (∀ w : QuadWord, exec (decode (.quad k w)) s
      = .next (s.withEnc k ⟨w.extractLsb' 0 2, (s.enc k).blips, true⟩))
    ∧ exec (.qstep k) s
      = .next (s.withEnc k ⟨gray2bin (knobSample k s.wires.inp.enc), (s.enc k).blips, true⟩)

/-- `QSTEP` on an initialised knob is the format-Q word of the stored quadrant and the sampled one; the sampled one is
the Gray-to-binary conversion of the knob's two contacts (30_encoding.md rules R88, R90; 42_quadrature.md rule R163). -/
def Obligations.QstepRunsTheWordOfItsTransition : Prop :=
  (∀ (k : Knob) (s : State), (s.enc k).initialized = true →
    ∃ t, exec (.qstep k) s = .next t
      ∧ exec (decode (.quad k ((s.enc k).quadrant ++ gray2bin (knobSample k s.wires.inp.enc)))) s = .next t)
  ∧ (gray2bin 0b00#2 = 0#2 ∧ gray2bin 0b01#2 = 1#2 ∧ gray2bin 0b11#2 = 2#2 ∧ gray2bin 0b10#2 = 3#2)
  ∧ ∀ a b : BitVec 2, knobSample .A (b ++ a) = a ∧ knobSample .B (b ++ a) = b

/-- `ENSAMPLE` steps knob A, then knob B, from the one sample, and idles the sequencer (42_quadrature.md rule R161). -/
def Obligations.EnsampleStepsAThenB : Prop :=
  ∀ s : State, ∃ a b, exec (.qstep .A) s = .next a ∧ exec (.qstep .B) a = .next b
    ∧ exec .ensample s = .next { b with pchSt := .idle }

/-- Stepping one knob neither reads nor writes the other's registers or post port (42_quadrature.md rule R166). -/
def Obligations.KnobsShareNoState : Prop :=
  ∀ (s t : State) (e : EncState),
    (exec (.qstep .A) s = .next t →
      t.encB = s.encB ∧ t.wires.posts.B = s.wires.posts.B
        ∧ exec (.qstep .A) { s with encB := e } = .next { t with encB := e })
    ∧ (exec (.qstep .B) s = .next t →
      t.encA = s.encA ∧ t.wires.posts.A = s.wires.posts.A
        ∧ exec (.qstep .B) { s with encA := e } = .next { t with encA := e })

/-- With four blips to a detent, from quadrant 0 with a count of 0, four forward words post one increase and leave the
knob as it was, and a skip to quadrant 2 and back posts nothing and leaves the knob as it was (42_quadrature.md rule
R171). -/
def Obligations.FourQuartersMakeOneDetent : Prop :=
  ∀ (k : Knob) (s : State), s.cfg.blipsPerDetent = 4 → s.enc k = ⟨0#2, 0, true⟩ →
    runOps [.qFwd01 k, .qFwd12 k, .qFwd23 k, .qFwd30 k] s
      = .next (s.withPost (knobPort k) (if k = .A then 0x04#8 else 0x20#8))
    ∧ runOps [.qSkip02 k, .qSkip20 k] s = .next s

/-- `ENSETTLE` (42_quadrature.md rule R160): equal reads are counted, a changed read restarts the window, the sample is
taken after `T_SETTLE` equal reads, the bound aborts; completion is tested before the bound. -/
def Obligations.EnsettleWaitsForAStillPort : Prop :=
  ∀ s : State, s.pcie = true → s.wires.hold = false → s.pchSt = .enSettle →
    (s.wires.inp.enc = s.enRaw → s.cfg.tSettle ≤ s.enCnt + 1 →
      exec .ensettle s = exec .ensample { s with enTot := s.enTot + 1, enCnt := s.enCnt + 1 })
    ∧ (s.wires.inp.enc = s.enRaw → s.enCnt + 1 < s.cfg.tSettle →
      (∀ b, s.cfg.tEnMax = some b → s.enTot + 1 < b) →
      exec .ensettle s = .next { s with enTot := s.enTot + 1, enCnt := s.enCnt + 1 })
    ∧ (s.wires.inp.enc = s.enRaw → s.enCnt + 1 < s.cfg.tSettle →
      (∃ b, s.cfg.tEnMax = some b ∧ b ≤ s.enTot + 1) →
      exec .ensettle s = exec .enabort { s with enTot := s.enTot + 1, enCnt := s.enCnt + 1 })
    ∧ (s.wires.inp.enc ≠ s.enRaw → 1 < s.cfg.tSettle → (∀ b, s.cfg.tEnMax = some b → s.enTot + 1 < b) →
      exec .ensettle s = .next { s with enTot := s.enTot + 1, enCnt := 1, enRaw := s.wires.inp.enc })
    ∧ (s.wires.inp.enc ≠ s.enRaw → 1 < s.cfg.tSettle → (∃ b, s.cfg.tEnMax = some b ∧ b ≤ s.enTot + 1) →
      exec .ensettle s = exec .enabort { s with enTot := s.enTot + 1, enCnt := 1, enRaw := s.wires.inp.enc })
    ∧ (s.wires.inp.enc ≠ s.enRaw → s.cfg.tSettle ≤ 1 →
      exec .ensettle s = exec .ensample { s with enTot := s.enTot + 1, enCnt := 1, enRaw := s.wires.inp.enc })

/-- A capture in `IR_IDLE`, `IR_SYNC_GAP` or `IR_BIT_GAP` enters the low pulse and restarts the time-out
(43_ir_decoder.md rules R181, R183, R184); that the three operations do nothing without one is the model's choice
(assumption log 12). -/
def Obligations.FallingEdgeEntersThePulse : Prop :=
  ∀ s : State,
    (s.wires.cap ≠ none →
      (s.irSt = .idle → exec .irarm s = .next { s with irCnt := 0, irSt := .syncLow })
      ∧ (s.irSt = .syncGap → exec .irsync s = .next { s with irCnt := 0, irSt := .syncLow })
      ∧ (s.irSt = .bitGap → exec .irbit s = .next { s with irCnt := 0, irSt := .bitLow }))
    ∧ (s.wires.cap = none →
      exec .irarm s = .next s ∧ exec .irsync s = .next s ∧ exec .irbit s = .next s)

/-- The end of a pulse runs the symbol its width decodes to, in frame sync and in bit capture, and restarts the
time-out (43_ir_decoder.md rules R182, R185). -/
def Obligations.PulsesRunTheSymbolOfTheirWidth : Prop :=
  ∀ (s : State) (w : Nat), s.wires.cap ≠ none → s.wires.width = some w →
    (s.irSt = .syncLow → exec .irsync s = exec (decodeSyncPulse s.cfg w) { s with irCnt := 0 })
    ∧ (s.irSt = .bitLow → exec .irbit s = exec (decodeDataPulse s.cfg w) { s with irCnt := 0 })

/-- In `IR_SYNC_LOW` a lead is the frame start and any other pulse keeps frame sync going (43_ir_decoder.md rule
R182); that neither symbol does anything in another state is the model's choice (assumption log 12). -/
def Obligations.SyncSymbolsStartOrPassOver : Prop :=
  ∀ s : State,
    (s.irSt = .syncLow →
      exec .symLead s = .next { s with bitIdx := 0#4, pkt := 0x000#12, irSt := .bitGap }
      ∧ exec .symNotLead s = .next { s with irSt := .syncGap })
    ∧ (s.irSt ≠ .syncLow → exec .symLead s = .next s ∧ exec .symNotLead s = .next s)

/-- In `IR_BIT_LOW` a bit symbol stores its bit at its ordinal position and goes on to the next gap, or hands over the
packet after the last of `N_BITS`; a bad symbol rejects and restarts frame sync (43_ir_decoder.md rules R185, R186).
Rule R186 completes the packet at once; that the symbol leaves it on a wire, the decoder still in `IR_BIT_LOW`, is the
model's reading (assumption log 17). That none does anything in another state is the model's choice (log 12). -/
def Obligations.DataSymbolsStoreOrReject : Prop :=
  ∀ s : State,
    (s.irSt = .bitLow →
      (s.bitIdx.toNat + 1 ≠ s.cfg.nBits →
        exec .symZero s = .next { s with bitIdx := s.bitIdx + 1#4, irSt := .bitGap }
        ∧ exec .symOne s = .next { s with
            pkt := s.pkt ||| (1#12 <<< s.bitIdx.toNat), bitIdx := s.bitIdx + 1#4, irSt := .bitGap })
      ∧ (s.bitIdx.toNat + 1 = s.cfg.nBits →
        exec .symZero s = .next { s with wires := { s.wires with packet := some s.pkt } }
        ∧ exec .symOne s = .next { s with
            pkt := s.pkt ||| (1#12 <<< s.bitIdx.toNat)
            wires := { s.wires with packet := some (s.pkt ||| (1#12 <<< s.bitIdx.toNat)) } })
      ∧ exec .symBad s = .next { s with
          out := { s.out with rejects := s.out.rejects ++ [.badWidth] }, irSt := .syncGap })
    ∧ (s.irSt ≠ .bitLow →
      exec .symZero s = .next s ∧ exec .symOne s = .next s ∧ exec .symBad s = .next s)

/-- Twelve data symbols after a lead, bit `i` of a packet the `i`-th, assemble exactly that packet (20_memory.md rule
R62, 43_ir_decoder.md rule R186). That the packet then stands on a wire with the decoder still in `IR_BIT_LOW`, for
`IRADDR` and `IRCMD` of the same tick, is the model's reading (assumption log 17). -/
def Obligations.FrameAssemblesThePacket : Prop :=
  ∀ (p : Packet) (s : State), s.cfg.nBits = 12 → s.bitIdx = 0#4 → s.pkt = 0x000#12 →
    receiveBits ((List.range 12).map p.getLsbD) s
      = .next { s with bitIdx := 11#4, pkt := p, irSt := .bitLow, wires := { s.wires with packet := some p } }

/-- A packet whose address is not the receiver's is discarded and restarts frame sync: no post, no release wait
(43_ir_decoder.md rule R187). An accepted address goes on to the command. That the packet stands on a wire between the
two operations, and that a packet word acts in every decoder state, are the model's choices (assumption log 15, 17). -/
def Obligations.ForeignPacketsAreDiscarded : Prop :=
  ∀ s : State,
    (∀ p : Packet, s.wires.packet = some p →
      (p.extractLsb' 7 5 ≠ s.cfg.rxAddr →
        exec .iraddr s = .next { s with
          out := { s.out with rejects := s.out.rejects ++ [.wrongAddress] }
          irSt := .syncGap
          wires := { s.wires with packet := none } })
      ∧ (p.extractLsb' 7 5 = s.cfg.rxAddr → exec .iraddr s = .next s))
    ∧ (s.wires.packet = none → exec .iraddr s = .next s ∧ exec .ircmd s = .next s)
    ∧ ∀ (a : BitVec 5) (c : BitVec 7), a ≠ s.cfg.rxAddr →
      exec (.pkt a c) s = .next { s with
        out := { s.out with rejects := s.out.rejects ++ [.wrongAddress] }, irSt := .syncGap }

/-- An accepted packet posts the button `CMD_MAP` gives its command, nothing if that is `None`, and the release wait
follows either way (43_ir_decoder.md rule R188; the packet's wire and its word are the model's, assumption log 15, 17).
-/
def Obligations.AcceptedPacketsPostTheirCommand : Prop :=
  ∀ (s : State) (cmd : BitVec 7),
    (∀ p : Packet, s.wires.packet = some p → p.extractLsb' 0 7 = cmd →
      (s.cfg.commandButton cmd = .noButton → exec .ircmd s = .next { s with irSt := .rel })
      ∧ (s.cfg.commandButton cmd ≠ .noButton →
        exec .ircmd s = .next { s with
          irSt := .rel
          wires := { s.wires with posts := { s.wires.posts with ir := some (s.cfg.commandButton cmd).code } } }))
    ∧ (s.cfg.commandButton cmd = .noButton → exec (.pkt s.cfg.rxAddr cmd) s = .next { s with irSt := .rel })
    ∧ (s.cfg.commandButton cmd ≠ .noButton →
      exec (.pkt s.cfg.rxAddr cmd) s = .next { s with
        irSt := .rel
        wires := { s.wires with posts := { s.wires.posts with ir := some (s.cfg.commandButton cmd).code } } })

/-- Whatever `RX_ADDR` and `CMD_MAP`, each of the eight listed packets is the packet of address 1 and of its command
(43_ir_decoder.md rules R187, R188; that a packet's word is its address and command and nothing else is assumption log
15). With the reference `RX_ADDR` and `CMD_MAP` (30_encoding.md rule R87; all but the entry 0x12 are decision D7) each
posts its button. -/
def Obligations.ListedPacketsPostTheirButtons : Prop :=
  (∀ (s : State) (i : Instr) (cmd : BitVec 7),
    (i, cmd) ∈ [(Instr.pktVolumeUp, 0x12#7), (.pktVolumeDown, 0x13#7), (.pktEnter, 0x65#7), (.pktBack, 0x63#7),
      (.pktDirUp, 0x74#7), (.pktDirDown, 0x75#7), (.pktDirLeft, 0x34#7), (.pktDirRight, 0x33#7)] →
    ∃ t, exec i s = .next t ∧ exec (.pkt 1#5 cmd) s = .next t)
  ∧ ∀ (s : State) (i : Instr) (code : Byte),
    s.cfg.rxAddr = 1#5 → s.cfg.cmdMap = Config.reference.cmdMap →
    (i, code) ∈ [(Instr.pktVolumeUp, 0x04#8), (.pktVolumeDown, 0x08#8), (.pktEnter, 0x01#8), (.pktBack, 0x02#8),
      (.pktDirUp, 0x40#8), (.pktDirDown, 0x41#8), (.pktDirLeft, 0x42#8), (.pktDirRight, 0x43#8)] →
    exec i s = .next { s with
      irSt := .rel, wires := { s.wires with posts := { s.wires.posts with ir := some code } } }

/-- In the release wait a capture restarts the silence and does nothing else (43_ir_decoder.md rule R189); without a
capture the operation is not selected (assumption log 12). -/
def Obligations.IrrelOnlyRestartsTheSilence : Prop :=
  ∀ s : State,
    (s.irSt = .rel → s.wires.cap ≠ none → exec .irrel s = .next { s with irCnt := 0 })
    ∧ (s.wires.cap = none → exec .irrel s = .next s)

/-- A tick without a capture outside `IR_IDLE` counts; at `T_TIMEOUT` the decoder returns to `IR_IDLE` and re-arms, with
the reject of the state it leaves (43_ir_decoder.md rules R190, R191). -/
def Obligations.IrtimeoutReturnsToIdle : Prop :=
  ∀ s : State, s.icie = true → s.wires.hold = false → s.wires.cap = none →
    (s.irSt ≠ .idle → s.irCnt + 1 < s.cfg.tTimeout → exec .irtimeout s = .next { s with irCnt := s.irCnt + 1 })
    ∧ (s.irSt ≠ .idle → s.cfg.tTimeout ≤ s.irCnt + 1 →
      exec .irtimeout s = .next { s with
        irCnt := s.irCnt + 1
        irSt := .idle
        ices := false
        out := { s.out with rejects := s.out.rejects ++
          (if s.irSt = .bitGap ∨ s.irSt = .bitLow then [.incomplete]
           else if s.irSt = .syncLow ∨ s.irSt = .syncGap then [.listen]
           else []) } })
    ∧ (s.irSt = .idle → exec .irtimeout s = .next s)

/-- A line without edges returns the decoder to `IR_IDLE` exactly `T_TIMEOUT` ticks after the last captured edge, from
every state (43_ir_decoder.md rules R190, R195). -/
def Obligations.SilenceReturnsTheDecoderToIdle : Prop :=
  ∀ (s : State) (ins rest : List Inputs),
    s.cfg.valid = true → s.icie = true → s.irSt ≠ .idle → s.irCnt < s.cfg.tTimeout →
    s.inputs = ins ++ rest → ins.length = s.cfg.tTimeout - s.irCnt →
    (∀ i ∈ ins, i.rst = false ∧ i.hostOp ≠ 0b001#3 ∧ i.irIn = s.irPrev) →
    (∃ t : State, Sys2Proof.core.run (s.cfg.tTimeout - s.irCnt) s = .next t
      ∧ t.irSt = .idle ∧ t.ices = false ∧ t.inputs = rest)
    ∧ ∀ k < s.cfg.tTimeout - s.irCnt, ∃ u : State, Sys2Proof.core.run k s = .next u ∧ u.irSt = s.irSt

/-- The reset state meets the invariant. -/
def Obligations.ResetMeetsTheInvariant : Prop := Invariant State.reset ∧ WidthIsExact State.reset

/-- Every step keeps the invariant (10_state.md rule R48, 42_quadrature.md rule R169). -/
def Obligations.StepKeepsTheInvariant : Prop :=
  ∀ s t : State, Invariant s → step s = .next t → Invariant t

/-- The ten facts of 10_state.md rule R48 hold in every state a run from reset reaches, whatever the lines do and
whatever the configuration, as long as `step` does not refuse it (rule R10; assumption log 5 and 22). -/
def Obligations.ReachableStatesKeepTheTenFacts : Prop :=
  ∀ (c : Config) (ins : List Inputs) (n : Nat) (t : State), c.valid = true →
    Sys2Proof.core.run n { State.reset with cfg := c, inputs := ins } = .next t → ReachableFacts t

/-- The enables and the knobs' `initialized` bits fall only at reset, and the enables rise only at `INIT` (10_state.md
rules R25, R32, R44). -/
def Obligations.EnablesAndSeedsFallOnlyAtReset : Prop :=
  ∀ (s t : State) (i : Inputs) (rest : List Inputs),
    s.inputs = i :: rest → i.rst = false → step s = .next t →
    (s.icie = true → t.icie = true) ∧ (s.pcie = true → t.pcie = true)
      ∧ (s.encA.initialized = true → t.encA.initialized = true)
      ∧ (s.encB.initialized = true → t.encB.initialized = true)
      ∧ (i.hostOp ≠ 0b001#3 → t.icie = s.icie ∧ t.pcie = s.pcie)

/-- The decoder leaves `IR_IDLE` only into `IR_SYNC_LOW`, only when enabled, and only at a falling edge of the line,
whose counter value is the pulse's start (43_ir_decoder.md rule R181). -/
def Obligations.DecoderLeavesIdleOnlyAtAFallingEdge : Prop :=
  ∀ (s t : State) (i : Inputs) (rest : List Inputs),
    EdgeSelectFits s → s.inputs = i :: rest → i.rst = false → step s = .next t → s.irSt = .idle → t.irSt ≠ .idle →
    t.irSt = .syncLow ∧ s.icie = true ∧ i.hostOp ≠ 0b001#3 ∧ s.irPrev = true ∧ i.irIn = false
      ∧ t.capStart = s.tcnt ∧ t.icr = s.tcnt ∧ t.ices = true ∧ t.irCnt = 0
end

