-- ==== Sys2Proof/Laws/State.lean ====
section
/-! SUPPORT. One lemma per field per named update of `State`, so that no later proof unfolds a record update. -/

namespace Sys2Proof.Machine

open Sys2Proof

@[simp] theorem State.withReject_cfg (s : State) (c : RejectCause) : (s.withReject c).cfg = s.cfg := rfl
@[simp] theorem State.withReject_inputs (s : State) (c : RejectCause) : (s.withReject c).inputs = s.inputs := rfl
@[simp] theorem State.withReject_drawn (s : State) (c : RejectCause) : (s.withReject c).drawn = s.drawn := rfl
@[simp] theorem State.withReject_wires (s : State) (c : RejectCause) : (s.withReject c).wires = s.wires := rfl
@[simp] theorem State.withReject_tcnt (s : State) (c : RejectCause) : (s.withReject c).tcnt = s.tcnt := rfl
@[simp] theorem State.withReject_icr (s : State) (c : RejectCause) : (s.withReject c).icr = s.icr := rfl
@[simp] theorem State.withReject_ices (s : State) (c : RejectCause) : (s.withReject c).ices = s.ices := rfl
@[simp] theorem State.withReject_icie (s : State) (c : RejectCause) : (s.withReject c).icie = s.icie := rfl
@[simp] theorem State.withReject_irPrev (s : State) (c : RejectCause) : (s.withReject c).irPrev = s.irPrev := rfl
@[simp] theorem State.withReject_capStart (s : State) (c : RejectCause) : (s.withReject c).capStart = s.capStart := rfl
@[simp] theorem State.withReject_irSt (s : State) (c : RejectCause) : (s.withReject c).irSt = s.irSt := rfl
@[simp] theorem State.withReject_irCnt (s : State) (c : RejectCause) : (s.withReject c).irCnt = s.irCnt := rfl
@[simp] theorem State.withReject_bitIdx (s : State) (c : RejectCause) : (s.withReject c).bitIdx = s.bitIdx := rfl
@[simp] theorem State.withReject_pkt (s : State) (c : RejectCause) : (s.withReject c).pkt = s.pkt := rfl
@[simp] theorem State.withReject_pcie (s : State) (c : RejectCause) : (s.withReject c).pcie = s.pcie := rfl
@[simp] theorem State.withReject_pcif (s : State) (c : RejectCause) : (s.withReject c).pcif = s.pcif := rfl
@[simp] theorem State.withReject_pcPrev (s : State) (c : RejectCause) : (s.withReject c).pcPrev = s.pcPrev := rfl
@[simp] theorem State.withReject_pchSt (s : State) (c : RejectCause) : (s.withReject c).pchSt = s.pchSt := rfl
@[simp] theorem State.withReject_dbCand (s : State) (c : RejectCause) : (s.withReject c).dbCand = s.dbCand := rfl
@[simp] theorem State.withReject_dbCnt (s : State) (c : RejectCause) : (s.withReject c).dbCnt = s.dbCnt := rfl
@[simp] theorem State.withReject_dbTot (s : State) (c : RejectCause) : (s.withReject c).dbTot = s.dbTot := rfl
@[simp] theorem State.withReject_enRaw (s : State) (c : RejectCause) : (s.withReject c).enRaw = s.enRaw := rfl
@[simp] theorem State.withReject_enCnt (s : State) (c : RejectCause) : (s.withReject c).enCnt = s.enCnt := rfl
@[simp] theorem State.withReject_enTot (s : State) (c : RejectCause) : (s.withReject c).enTot = s.enTot := rfl
@[simp] theorem State.withReject_encA (s : State) (c : RejectCause) : (s.withReject c).encA = s.encA := rfl
@[simp] theorem State.withReject_encB (s : State) (c : RejectCause) : (s.withReject c).encB = s.encB := rfl
@[simp] theorem State.withReject_evt (s : State) (c : RejectCause) : (s.withReject c).evt = s.evt := rfl

@[simp] theorem State.withReject_out (s : State) (c : RejectCause) :
    (s.withReject c).out = { s.out with rejects := s.out.rejects ++ [c] } := rfl

@[simp] theorem State.withResponse_cfg (s : State) (v : Byte) : (s.withResponse v).cfg = s.cfg := rfl
@[simp] theorem State.withResponse_inputs (s : State) (v : Byte) : (s.withResponse v).inputs = s.inputs := rfl
@[simp] theorem State.withResponse_drawn (s : State) (v : Byte) : (s.withResponse v).drawn = s.drawn := rfl
@[simp] theorem State.withResponse_wires (s : State) (v : Byte) : (s.withResponse v).wires = s.wires := rfl
@[simp] theorem State.withResponse_tcnt (s : State) (v : Byte) : (s.withResponse v).tcnt = s.tcnt := rfl
@[simp] theorem State.withResponse_icr (s : State) (v : Byte) : (s.withResponse v).icr = s.icr := rfl
@[simp] theorem State.withResponse_ices (s : State) (v : Byte) : (s.withResponse v).ices = s.ices := rfl
@[simp] theorem State.withResponse_icie (s : State) (v : Byte) : (s.withResponse v).icie = s.icie := rfl
@[simp] theorem State.withResponse_irPrev (s : State) (v : Byte) : (s.withResponse v).irPrev = s.irPrev := rfl
@[simp] theorem State.withResponse_capStart (s : State) (v : Byte) : (s.withResponse v).capStart = s.capStart := rfl
@[simp] theorem State.withResponse_irSt (s : State) (v : Byte) : (s.withResponse v).irSt = s.irSt := rfl
@[simp] theorem State.withResponse_irCnt (s : State) (v : Byte) : (s.withResponse v).irCnt = s.irCnt := rfl
@[simp] theorem State.withResponse_bitIdx (s : State) (v : Byte) : (s.withResponse v).bitIdx = s.bitIdx := rfl
@[simp] theorem State.withResponse_pkt (s : State) (v : Byte) : (s.withResponse v).pkt = s.pkt := rfl
@[simp] theorem State.withResponse_pcie (s : State) (v : Byte) : (s.withResponse v).pcie = s.pcie := rfl
@[simp] theorem State.withResponse_pcif (s : State) (v : Byte) : (s.withResponse v).pcif = s.pcif := rfl
@[simp] theorem State.withResponse_pcPrev (s : State) (v : Byte) : (s.withResponse v).pcPrev = s.pcPrev := rfl
@[simp] theorem State.withResponse_pchSt (s : State) (v : Byte) : (s.withResponse v).pchSt = s.pchSt := rfl
@[simp] theorem State.withResponse_dbCand (s : State) (v : Byte) : (s.withResponse v).dbCand = s.dbCand := rfl
@[simp] theorem State.withResponse_dbCnt (s : State) (v : Byte) : (s.withResponse v).dbCnt = s.dbCnt := rfl
@[simp] theorem State.withResponse_dbTot (s : State) (v : Byte) : (s.withResponse v).dbTot = s.dbTot := rfl
@[simp] theorem State.withResponse_enRaw (s : State) (v : Byte) : (s.withResponse v).enRaw = s.enRaw := rfl
@[simp] theorem State.withResponse_enCnt (s : State) (v : Byte) : (s.withResponse v).enCnt = s.enCnt := rfl
@[simp] theorem State.withResponse_enTot (s : State) (v : Byte) : (s.withResponse v).enTot = s.enTot := rfl
@[simp] theorem State.withResponse_encA (s : State) (v : Byte) : (s.withResponse v).encA = s.encA := rfl
@[simp] theorem State.withResponse_encB (s : State) (v : Byte) : (s.withResponse v).encB = s.encB := rfl
@[simp] theorem State.withResponse_evt (s : State) (v : Byte) : (s.withResponse v).evt = s.evt := rfl

@[simp] theorem State.withResponse_out (s : State) (v : Byte) :
    (s.withResponse v).out = { s.out with hostRsp := v } := rfl

@[simp] theorem State.withClr_cfg (s : State) : (s.withClr).cfg = s.cfg := rfl
@[simp] theorem State.withClr_inputs (s : State) : (s.withClr).inputs = s.inputs := rfl
@[simp] theorem State.withClr_drawn (s : State) : (s.withClr).drawn = s.drawn := rfl
@[simp] theorem State.withClr_out (s : State) : (s.withClr).out = s.out := rfl
@[simp] theorem State.withClr_tcnt (s : State) : (s.withClr).tcnt = s.tcnt := rfl
@[simp] theorem State.withClr_icr (s : State) : (s.withClr).icr = s.icr := rfl
@[simp] theorem State.withClr_ices (s : State) : (s.withClr).ices = s.ices := rfl
@[simp] theorem State.withClr_icie (s : State) : (s.withClr).icie = s.icie := rfl
@[simp] theorem State.withClr_irPrev (s : State) : (s.withClr).irPrev = s.irPrev := rfl
@[simp] theorem State.withClr_capStart (s : State) : (s.withClr).capStart = s.capStart := rfl
@[simp] theorem State.withClr_irSt (s : State) : (s.withClr).irSt = s.irSt := rfl
@[simp] theorem State.withClr_irCnt (s : State) : (s.withClr).irCnt = s.irCnt := rfl
@[simp] theorem State.withClr_bitIdx (s : State) : (s.withClr).bitIdx = s.bitIdx := rfl
@[simp] theorem State.withClr_pkt (s : State) : (s.withClr).pkt = s.pkt := rfl
@[simp] theorem State.withClr_pcie (s : State) : (s.withClr).pcie = s.pcie := rfl
@[simp] theorem State.withClr_pcif (s : State) : (s.withClr).pcif = s.pcif := rfl
@[simp] theorem State.withClr_pcPrev (s : State) : (s.withClr).pcPrev = s.pcPrev := rfl
@[simp] theorem State.withClr_pchSt (s : State) : (s.withClr).pchSt = s.pchSt := rfl
@[simp] theorem State.withClr_dbCand (s : State) : (s.withClr).dbCand = s.dbCand := rfl
@[simp] theorem State.withClr_dbCnt (s : State) : (s.withClr).dbCnt = s.dbCnt := rfl
@[simp] theorem State.withClr_dbTot (s : State) : (s.withClr).dbTot = s.dbTot := rfl
@[simp] theorem State.withClr_enRaw (s : State) : (s.withClr).enRaw = s.enRaw := rfl
@[simp] theorem State.withClr_enCnt (s : State) : (s.withClr).enCnt = s.enCnt := rfl
@[simp] theorem State.withClr_enTot (s : State) : (s.withClr).enTot = s.enTot := rfl
@[simp] theorem State.withClr_encA (s : State) : (s.withClr).encA = s.encA := rfl
@[simp] theorem State.withClr_encB (s : State) : (s.withClr).encB = s.encB := rfl
@[simp] theorem State.withClr_evt (s : State) : (s.withClr).evt = s.evt := rfl

@[simp] theorem State.withClr_wires (s : State) : (s.withClr).wires = { s.wires with clr := true } := rfl

@[simp] theorem State.withPost_cfg (s : State) (p : PostPort) (v : Byte) : (s.withPost p v).cfg = s.cfg := by cases p <;> rfl
@[simp] theorem State.withPost_inputs (s : State) (p : PostPort) (v : Byte) : (s.withPost p v).inputs = s.inputs := by cases p <;> rfl
@[simp] theorem State.withPost_drawn (s : State) (p : PostPort) (v : Byte) : (s.withPost p v).drawn = s.drawn := by cases p <;> rfl
@[simp] theorem State.withPost_out (s : State) (p : PostPort) (v : Byte) : (s.withPost p v).out = s.out := by cases p <;> rfl
@[simp] theorem State.withPost_tcnt (s : State) (p : PostPort) (v : Byte) : (s.withPost p v).tcnt = s.tcnt := by cases p <;> rfl
@[simp] theorem State.withPost_icr (s : State) (p : PostPort) (v : Byte) : (s.withPost p v).icr = s.icr := by cases p <;> rfl
@[simp] theorem State.withPost_ices (s : State) (p : PostPort) (v : Byte) : (s.withPost p v).ices = s.ices := by cases p <;> rfl
@[simp] theorem State.withPost_icie (s : State) (p : PostPort) (v : Byte) : (s.withPost p v).icie = s.icie := by cases p <;> rfl
@[simp] theorem State.withPost_irPrev (s : State) (p : PostPort) (v : Byte) : (s.withPost p v).irPrev = s.irPrev := by cases p <;> rfl
@[simp] theorem State.withPost_capStart (s : State) (p : PostPort) (v : Byte) : (s.withPost p v).capStart = s.capStart := by cases p <;> rfl
@[simp] theorem State.withPost_irSt (s : State) (p : PostPort) (v : Byte) : (s.withPost p v).irSt = s.irSt := by cases p <;> rfl
@[simp] theorem State.withPost_irCnt (s : State) (p : PostPort) (v : Byte) : (s.withPost p v).irCnt = s.irCnt := by cases p <;> rfl
@[simp] theorem State.withPost_bitIdx (s : State) (p : PostPort) (v : Byte) : (s.withPost p v).bitIdx = s.bitIdx := by cases p <;> rfl
@[simp] theorem State.withPost_pkt (s : State) (p : PostPort) (v : Byte) : (s.withPost p v).pkt = s.pkt := by cases p <;> rfl
@[simp] theorem State.withPost_pcie (s : State) (p : PostPort) (v : Byte) : (s.withPost p v).pcie = s.pcie := by cases p <;> rfl
@[simp] theorem State.withPost_pcif (s : State) (p : PostPort) (v : Byte) : (s.withPost p v).pcif = s.pcif := by cases p <;> rfl
@[simp] theorem State.withPost_pcPrev (s : State) (p : PostPort) (v : Byte) : (s.withPost p v).pcPrev = s.pcPrev := by cases p <;> rfl
@[simp] theorem State.withPost_pchSt (s : State) (p : PostPort) (v : Byte) : (s.withPost p v).pchSt = s.pchSt := by cases p <;> rfl
@[simp] theorem State.withPost_dbCand (s : State) (p : PostPort) (v : Byte) : (s.withPost p v).dbCand = s.dbCand := by cases p <;> rfl
@[simp] theorem State.withPost_dbCnt (s : State) (p : PostPort) (v : Byte) : (s.withPost p v).dbCnt = s.dbCnt := by cases p <;> rfl
@[simp] theorem State.withPost_dbTot (s : State) (p : PostPort) (v : Byte) : (s.withPost p v).dbTot = s.dbTot := by cases p <;> rfl
@[simp] theorem State.withPost_enRaw (s : State) (p : PostPort) (v : Byte) : (s.withPost p v).enRaw = s.enRaw := by cases p <;> rfl
@[simp] theorem State.withPost_enCnt (s : State) (p : PostPort) (v : Byte) : (s.withPost p v).enCnt = s.enCnt := by cases p <;> rfl
@[simp] theorem State.withPost_enTot (s : State) (p : PostPort) (v : Byte) : (s.withPost p v).enTot = s.enTot := by cases p <;> rfl
@[simp] theorem State.withPost_encA (s : State) (p : PostPort) (v : Byte) : (s.withPost p v).encA = s.encA := by cases p <;> rfl
@[simp] theorem State.withPost_encB (s : State) (p : PostPort) (v : Byte) : (s.withPost p v).encB = s.encB := by cases p <;> rfl
@[simp] theorem State.withPost_evt (s : State) (p : PostPort) (v : Byte) : (s.withPost p v).evt = s.evt := by cases p <;> rfl
@[simp] theorem State.withPost_wires_inp (s : State) (p : PostPort) (v : Byte) :
    (s.withPost p v).wires.inp = s.wires.inp := by cases p <;> rfl
@[simp] theorem State.withPost_wires_fall (s : State) (p : PostPort) (v : Byte) :
    (s.withPost p v).wires.fall = s.wires.fall := by cases p <;> rfl
@[simp] theorem State.withPost_wires_rise (s : State) (p : PostPort) (v : Byte) :
    (s.withPost p v).wires.rise = s.wires.rise := by cases p <;> rfl
@[simp] theorem State.withPost_wires_chg (s : State) (p : PostPort) (v : Byte) :
    (s.withPost p v).wires.chg = s.wires.chg := by cases p <;> rfl
@[simp] theorem State.withPost_wires_cap (s : State) (p : PostPort) (v : Byte) :
    (s.withPost p v).wires.cap = s.wires.cap := by cases p <;> rfl
@[simp] theorem State.withPost_wires_width (s : State) (p : PostPort) (v : Byte) :
    (s.withPost p v).wires.width = s.wires.width := by cases p <;> rfl
@[simp] theorem State.withPost_wires_packet (s : State) (p : PostPort) (v : Byte) :
    (s.withPost p v).wires.packet = s.wires.packet := by cases p <;> rfl
@[simp] theorem State.withPost_wires_clr (s : State) (p : PostPort) (v : Byte) :
    (s.withPost p v).wires.clr = s.wires.clr := by cases p <;> rfl
@[simp] theorem State.withPost_wires_hold (s : State) (p : PostPort) (v : Byte) :
    (s.withPost p v).wires.hold = s.wires.hold := by cases p <;> rfl

@[simp] theorem State.withButton_cfg (s : State) (p : PostPort) (b : LogicalButton) : (s.withButton p b).cfg = s.cfg := by
  unfold State.withButton; split <;> simp
@[simp] theorem State.withButton_inputs (s : State) (p : PostPort) (b : LogicalButton) : (s.withButton p b).inputs = s.inputs := by
  unfold State.withButton; split <;> simp
@[simp] theorem State.withButton_drawn (s : State) (p : PostPort) (b : LogicalButton) : (s.withButton p b).drawn = s.drawn := by
  unfold State.withButton; split <;> simp
@[simp] theorem State.withButton_out (s : State) (p : PostPort) (b : LogicalButton) : (s.withButton p b).out = s.out := by
  unfold State.withButton; split <;> simp
@[simp] theorem State.withButton_tcnt (s : State) (p : PostPort) (b : LogicalButton) : (s.withButton p b).tcnt = s.tcnt := by
  unfold State.withButton; split <;> simp
@[simp] theorem State.withButton_icr (s : State) (p : PostPort) (b : LogicalButton) : (s.withButton p b).icr = s.icr := by
  unfold State.withButton; split <;> simp
@[simp] theorem State.withButton_ices (s : State) (p : PostPort) (b : LogicalButton) : (s.withButton p b).ices = s.ices := by
  unfold State.withButton; split <;> simp
@[simp] theorem State.withButton_icie (s : State) (p : PostPort) (b : LogicalButton) : (s.withButton p b).icie = s.icie := by
  unfold State.withButton; split <;> simp
@[simp] theorem State.withButton_irPrev (s : State) (p : PostPort) (b : LogicalButton) : (s.withButton p b).irPrev = s.irPrev := by
  unfold State.withButton; split <;> simp
@[simp] theorem State.withButton_capStart (s : State) (p : PostPort) (b : LogicalButton) : (s.withButton p b).capStart = s.capStart := by
  unfold State.withButton; split <;> simp
@[simp] theorem State.withButton_irSt (s : State) (p : PostPort) (b : LogicalButton) : (s.withButton p b).irSt = s.irSt := by
  unfold State.withButton; split <;> simp
@[simp] theorem State.withButton_irCnt (s : State) (p : PostPort) (b : LogicalButton) : (s.withButton p b).irCnt = s.irCnt := by
  unfold State.withButton; split <;> simp
@[simp] theorem State.withButton_bitIdx (s : State) (p : PostPort) (b : LogicalButton) : (s.withButton p b).bitIdx = s.bitIdx := by
  unfold State.withButton; split <;> simp
@[simp] theorem State.withButton_pkt (s : State) (p : PostPort) (b : LogicalButton) : (s.withButton p b).pkt = s.pkt := by
  unfold State.withButton; split <;> simp
@[simp] theorem State.withButton_pcie (s : State) (p : PostPort) (b : LogicalButton) : (s.withButton p b).pcie = s.pcie := by
  unfold State.withButton; split <;> simp
@[simp] theorem State.withButton_pcif (s : State) (p : PostPort) (b : LogicalButton) : (s.withButton p b).pcif = s.pcif := by
  unfold State.withButton; split <;> simp
@[simp] theorem State.withButton_pcPrev (s : State) (p : PostPort) (b : LogicalButton) : (s.withButton p b).pcPrev = s.pcPrev := by
  unfold State.withButton; split <;> simp
@[simp] theorem State.withButton_pchSt (s : State) (p : PostPort) (b : LogicalButton) : (s.withButton p b).pchSt = s.pchSt := by
  unfold State.withButton; split <;> simp
@[simp] theorem State.withButton_dbCand (s : State) (p : PostPort) (b : LogicalButton) : (s.withButton p b).dbCand = s.dbCand := by
  unfold State.withButton; split <;> simp
@[simp] theorem State.withButton_dbCnt (s : State) (p : PostPort) (b : LogicalButton) : (s.withButton p b).dbCnt = s.dbCnt := by
  unfold State.withButton; split <;> simp
@[simp] theorem State.withButton_dbTot (s : State) (p : PostPort) (b : LogicalButton) : (s.withButton p b).dbTot = s.dbTot := by
  unfold State.withButton; split <;> simp
@[simp] theorem State.withButton_enRaw (s : State) (p : PostPort) (b : LogicalButton) : (s.withButton p b).enRaw = s.enRaw := by
  unfold State.withButton; split <;> simp
@[simp] theorem State.withButton_enCnt (s : State) (p : PostPort) (b : LogicalButton) : (s.withButton p b).enCnt = s.enCnt := by
  unfold State.withButton; split <;> simp
@[simp] theorem State.withButton_enTot (s : State) (p : PostPort) (b : LogicalButton) : (s.withButton p b).enTot = s.enTot := by
  unfold State.withButton; split <;> simp
@[simp] theorem State.withButton_encA (s : State) (p : PostPort) (b : LogicalButton) : (s.withButton p b).encA = s.encA := by
  unfold State.withButton; split <;> simp
@[simp] theorem State.withButton_encB (s : State) (p : PostPort) (b : LogicalButton) : (s.withButton p b).encB = s.encB := by
  unfold State.withButton; split <;> simp
@[simp] theorem State.withButton_evt (s : State) (p : PostPort) (b : LogicalButton) : (s.withButton p b).evt = s.evt := by
  unfold State.withButton; split <;> simp
@[simp] theorem State.withButton_wires_inp (s : State) (p : PostPort) (b : LogicalButton) :
    (s.withButton p b).wires.inp = s.wires.inp := by unfold State.withButton; split <;> simp
@[simp] theorem State.withButton_wires_fall (s : State) (p : PostPort) (b : LogicalButton) :
    (s.withButton p b).wires.fall = s.wires.fall := by unfold State.withButton; split <;> simp
@[simp] theorem State.withButton_wires_rise (s : State) (p : PostPort) (b : LogicalButton) :
    (s.withButton p b).wires.rise = s.wires.rise := by unfold State.withButton; split <;> simp
@[simp] theorem State.withButton_wires_chg (s : State) (p : PostPort) (b : LogicalButton) :
    (s.withButton p b).wires.chg = s.wires.chg := by unfold State.withButton; split <;> simp
@[simp] theorem State.withButton_wires_cap (s : State) (p : PostPort) (b : LogicalButton) :
    (s.withButton p b).wires.cap = s.wires.cap := by unfold State.withButton; split <;> simp
@[simp] theorem State.withButton_wires_width (s : State) (p : PostPort) (b : LogicalButton) :
    (s.withButton p b).wires.width = s.wires.width := by unfold State.withButton; split <;> simp
@[simp] theorem State.withButton_wires_packet (s : State) (p : PostPort) (b : LogicalButton) :
    (s.withButton p b).wires.packet = s.wires.packet := by unfold State.withButton; split <;> simp
@[simp] theorem State.withButton_wires_clr (s : State) (p : PostPort) (b : LogicalButton) :
    (s.withButton p b).wires.clr = s.wires.clr := by unfold State.withButton; split <;> simp
@[simp] theorem State.withButton_wires_hold (s : State) (p : PostPort) (b : LogicalButton) :
    (s.withButton p b).wires.hold = s.wires.hold := by unfold State.withButton; split <;> simp

@[simp] theorem State.withEnc_cfg (s : State) (k : Knob) (e : EncState) : (s.withEnc k e).cfg = s.cfg := by cases k <;> rfl
@[simp] theorem State.withEnc_inputs (s : State) (k : Knob) (e : EncState) : (s.withEnc k e).inputs = s.inputs := by cases k <;> rfl
@[simp] theorem State.withEnc_drawn (s : State) (k : Knob) (e : EncState) : (s.withEnc k e).drawn = s.drawn := by cases k <;> rfl
@[simp] theorem State.withEnc_wires (s : State) (k : Knob) (e : EncState) : (s.withEnc k e).wires = s.wires := by cases k <;> rfl
@[simp] theorem State.withEnc_out (s : State) (k : Knob) (e : EncState) : (s.withEnc k e).out = s.out := by cases k <;> rfl
@[simp] theorem State.withEnc_tcnt (s : State) (k : Knob) (e : EncState) : (s.withEnc k e).tcnt = s.tcnt := by cases k <;> rfl
@[simp] theorem State.withEnc_icr (s : State) (k : Knob) (e : EncState) : (s.withEnc k e).icr = s.icr := by cases k <;> rfl
@[simp] theorem State.withEnc_ices (s : State) (k : Knob) (e : EncState) : (s.withEnc k e).ices = s.ices := by cases k <;> rfl
@[simp] theorem State.withEnc_icie (s : State) (k : Knob) (e : EncState) : (s.withEnc k e).icie = s.icie := by cases k <;> rfl
@[simp] theorem State.withEnc_irPrev (s : State) (k : Knob) (e : EncState) : (s.withEnc k e).irPrev = s.irPrev := by cases k <;> rfl
@[simp] theorem State.withEnc_capStart (s : State) (k : Knob) (e : EncState) : (s.withEnc k e).capStart = s.capStart := by cases k <;> rfl
@[simp] theorem State.withEnc_irSt (s : State) (k : Knob) (e : EncState) : (s.withEnc k e).irSt = s.irSt := by cases k <;> rfl
@[simp] theorem State.withEnc_irCnt (s : State) (k : Knob) (e : EncState) : (s.withEnc k e).irCnt = s.irCnt := by cases k <;> rfl
@[simp] theorem State.withEnc_bitIdx (s : State) (k : Knob) (e : EncState) : (s.withEnc k e).bitIdx = s.bitIdx := by cases k <;> rfl
@[simp] theorem State.withEnc_pkt (s : State) (k : Knob) (e : EncState) : (s.withEnc k e).pkt = s.pkt := by cases k <;> rfl
@[simp] theorem State.withEnc_pcie (s : State) (k : Knob) (e : EncState) : (s.withEnc k e).pcie = s.pcie := by cases k <;> rfl
@[simp] theorem State.withEnc_pcif (s : State) (k : Knob) (e : EncState) : (s.withEnc k e).pcif = s.pcif := by cases k <;> rfl
@[simp] theorem State.withEnc_pcPrev (s : State) (k : Knob) (e : EncState) : (s.withEnc k e).pcPrev = s.pcPrev := by cases k <;> rfl
@[simp] theorem State.withEnc_pchSt (s : State) (k : Knob) (e : EncState) : (s.withEnc k e).pchSt = s.pchSt := by cases k <;> rfl
@[simp] theorem State.withEnc_dbCand (s : State) (k : Knob) (e : EncState) : (s.withEnc k e).dbCand = s.dbCand := by cases k <;> rfl
@[simp] theorem State.withEnc_dbCnt (s : State) (k : Knob) (e : EncState) : (s.withEnc k e).dbCnt = s.dbCnt := by cases k <;> rfl
@[simp] theorem State.withEnc_dbTot (s : State) (k : Knob) (e : EncState) : (s.withEnc k e).dbTot = s.dbTot := by cases k <;> rfl
@[simp] theorem State.withEnc_enRaw (s : State) (k : Knob) (e : EncState) : (s.withEnc k e).enRaw = s.enRaw := by cases k <;> rfl
@[simp] theorem State.withEnc_enCnt (s : State) (k : Knob) (e : EncState) : (s.withEnc k e).enCnt = s.enCnt := by cases k <;> rfl
@[simp] theorem State.withEnc_enTot (s : State) (k : Knob) (e : EncState) : (s.withEnc k e).enTot = s.enTot := by cases k <;> rfl
@[simp] theorem State.withEnc_evt (s : State) (k : Knob) (e : EncState) : (s.withEnc k e).evt = s.evt := by cases k <;> rfl

@[simp] theorem State.withEnc_enc (s : State) (k : Knob) (e : EncState) : (s.withEnc k e).enc k = e := by cases k <;> rfl
@[simp] theorem State.withEnc_enc_self (s : State) (k : Knob) : s.withEnc k (s.enc k) = s := by cases k <;> rfl
@[simp] theorem State.withEnc_withEnc (s : State) (k : Knob) (e e' : EncState) :
    (s.withEnc k e).withEnc k e' = s.withEnc k e' := by cases k <;> rfl
@[simp] theorem State.withEnc_A_encA (s : State) (e : EncState) : (s.withEnc .A e).encA = e := rfl
@[simp] theorem State.withEnc_A_encB (s : State) (e : EncState) : (s.withEnc .A e).encB = s.encB := rfl
@[simp] theorem State.withEnc_B_encA (s : State) (e : EncState) : (s.withEnc .B e).encA = s.encA := rfl
@[simp] theorem State.withEnc_B_encB (s : State) (e : EncState) : (s.withEnc .B e).encB = e := rfl
@[simp] theorem State.enc_A (s : State) : s.enc .A = s.encA := rfl
@[simp] theorem State.enc_B (s : State) : s.enc .B = s.encB := rfl
@[simp] theorem State.withPost_enc (s : State) (p : PostPort) (v : Byte) (k : Knob) : (s.withPost p v).enc k = s.enc k := by
  cases p <;> cases k <;> rfl
@[simp] theorem State.withButton_enc (s : State) (p : PostPort) (b : LogicalButton) (k : Knob) :
    (s.withButton p b).enc k = s.enc k := by cases k <;> simp

@[simp] theorem State.endTick_cfg (s : State) : (s.endTick).cfg = s.cfg := rfl
@[simp] theorem State.endTick_inputs (s : State) : (s.endTick).inputs = s.inputs := rfl
@[simp] theorem State.endTick_drawn (s : State) : (s.endTick).drawn = s.drawn := rfl
@[simp] theorem State.endTick_out (s : State) : (s.endTick).out = s.out := rfl
@[simp] theorem State.endTick_tcnt (s : State) : (s.endTick).tcnt = s.tcnt := rfl
@[simp] theorem State.endTick_icr (s : State) : (s.endTick).icr = s.icr := rfl
@[simp] theorem State.endTick_ices (s : State) : (s.endTick).ices = s.ices := rfl
@[simp] theorem State.endTick_icie (s : State) : (s.endTick).icie = s.icie := rfl
@[simp] theorem State.endTick_irPrev (s : State) : (s.endTick).irPrev = s.irPrev := rfl
@[simp] theorem State.endTick_capStart (s : State) : (s.endTick).capStart = s.capStart := rfl
@[simp] theorem State.endTick_irSt (s : State) : (s.endTick).irSt = s.irSt := rfl
@[simp] theorem State.endTick_irCnt (s : State) : (s.endTick).irCnt = s.irCnt := rfl
@[simp] theorem State.endTick_bitIdx (s : State) : (s.endTick).bitIdx = s.bitIdx := rfl
@[simp] theorem State.endTick_pkt (s : State) : (s.endTick).pkt = s.pkt := rfl
@[simp] theorem State.endTick_pcie (s : State) : (s.endTick).pcie = s.pcie := rfl
@[simp] theorem State.endTick_pcif (s : State) : (s.endTick).pcif = s.pcif := rfl
@[simp] theorem State.endTick_pcPrev (s : State) : (s.endTick).pcPrev = s.pcPrev := rfl
@[simp] theorem State.endTick_pchSt (s : State) : (s.endTick).pchSt = s.pchSt := rfl
@[simp] theorem State.endTick_dbCand (s : State) : (s.endTick).dbCand = s.dbCand := rfl
@[simp] theorem State.endTick_dbCnt (s : State) : (s.endTick).dbCnt = s.dbCnt := rfl
@[simp] theorem State.endTick_dbTot (s : State) : (s.endTick).dbTot = s.dbTot := rfl
@[simp] theorem State.endTick_enRaw (s : State) : (s.endTick).enRaw = s.enRaw := rfl
@[simp] theorem State.endTick_enCnt (s : State) : (s.endTick).enCnt = s.enCnt := rfl
@[simp] theorem State.endTick_enTot (s : State) : (s.endTick).enTot = s.enTot := rfl
@[simp] theorem State.endTick_encA (s : State) : (s.endTick).encA = s.encA := rfl
@[simp] theorem State.endTick_encB (s : State) : (s.endTick).encB = s.encB := rfl
@[simp] theorem State.endTick_evt (s : State) : (s.endTick).evt = s.evt := rfl

@[simp] theorem State.endTick_wires (s : State) : s.endTick.wires = Wires.idle := rfl

@[simp] theorem State.sample_cfg (s : State) (i : Inputs) : (s.sample i).cfg = s.cfg := rfl
@[simp] theorem State.sample_inputs (s : State) (i : Inputs) : (s.sample i).inputs = s.inputs := rfl
@[simp] theorem State.sample_drawn (s : State) (i : Inputs) : (s.sample i).drawn = s.drawn := rfl
@[simp] theorem State.sample_tcnt (s : State) (i : Inputs) : (s.sample i).tcnt = s.tcnt := rfl
@[simp] theorem State.sample_icr (s : State) (i : Inputs) : (s.sample i).icr = s.icr := rfl
@[simp] theorem State.sample_ices (s : State) (i : Inputs) : (s.sample i).ices = s.ices := rfl
@[simp] theorem State.sample_icie (s : State) (i : Inputs) : (s.sample i).icie = s.icie := rfl
@[simp] theorem State.sample_irPrev (s : State) (i : Inputs) : (s.sample i).irPrev = s.irPrev := rfl
@[simp] theorem State.sample_capStart (s : State) (i : Inputs) : (s.sample i).capStart = s.capStart := rfl
@[simp] theorem State.sample_irSt (s : State) (i : Inputs) : (s.sample i).irSt = s.irSt := rfl
@[simp] theorem State.sample_irCnt (s : State) (i : Inputs) : (s.sample i).irCnt = s.irCnt := rfl
@[simp] theorem State.sample_bitIdx (s : State) (i : Inputs) : (s.sample i).bitIdx = s.bitIdx := rfl
@[simp] theorem State.sample_pkt (s : State) (i : Inputs) : (s.sample i).pkt = s.pkt := rfl
@[simp] theorem State.sample_pcie (s : State) (i : Inputs) : (s.sample i).pcie = s.pcie := rfl
@[simp] theorem State.sample_pcif (s : State) (i : Inputs) : (s.sample i).pcif = s.pcif := rfl
@[simp] theorem State.sample_pcPrev (s : State) (i : Inputs) : (s.sample i).pcPrev = s.pcPrev := rfl
@[simp] theorem State.sample_pchSt (s : State) (i : Inputs) : (s.sample i).pchSt = s.pchSt := rfl
@[simp] theorem State.sample_dbCand (s : State) (i : Inputs) : (s.sample i).dbCand = s.dbCand := rfl
@[simp] theorem State.sample_dbCnt (s : State) (i : Inputs) : (s.sample i).dbCnt = s.dbCnt := rfl
@[simp] theorem State.sample_dbTot (s : State) (i : Inputs) : (s.sample i).dbTot = s.dbTot := rfl
@[simp] theorem State.sample_enRaw (s : State) (i : Inputs) : (s.sample i).enRaw = s.enRaw := rfl
@[simp] theorem State.sample_enCnt (s : State) (i : Inputs) : (s.sample i).enCnt = s.enCnt := rfl
@[simp] theorem State.sample_enTot (s : State) (i : Inputs) : (s.sample i).enTot = s.enTot := rfl
@[simp] theorem State.sample_encA (s : State) (i : Inputs) : (s.sample i).encA = s.encA := rfl
@[simp] theorem State.sample_encB (s : State) (i : Inputs) : (s.sample i).encB = s.encB := rfl
@[simp] theorem State.sample_evt (s : State) (i : Inputs) : (s.sample i).evt = s.evt := rfl

@[simp] theorem State.sample_wires (s : State) (i : Inputs) : (s.sample i).wires = { Wires.idle with inp := i } := rfl
@[simp] theorem State.sample_out (s : State) (i : Inputs) : (s.sample i).out = Outputs.quiet := rfl

end Sys2Proof.Machine
end

