-- ==== Sys2Proof/Laws/Capture.lean ====
section
/-! SUPPORT. What the operations of the capture unit can do, the arithmetic of the pulse width, and the relation behind
40_capture.md rule R116. -/

namespace Sys2Proof.Machine

open Sys2Proof

/-- Two states that differ only in `TCNT`, `ICR` and `cap_start`, and agree on the width of a pulse being measured. -/
abbrev SameButCounter (s t : State) : Prop :=
  t = { s with tcnt := t.tcnt, icr := t.icr, capStart := t.capStart }
    ∧ (s.irSt = .syncLow ∨ s.irSt = .bitLow →
        pulseWidth t.cfg t.tcnt t.capStart = pulseWidth s.cfg s.tcnt s.capStart)

/-- A falling-edge capture. -/
theorem captureOp_falling {s : State} (hi : s.icie = true) (hh : s.wires.hold = false) (he : s.ices = false)
    (hf : s.wires.fall = true) :
    captureOp s = { s with
      icr := s.tcnt, capStart := s.tcnt, ices := true, wires := { s.wires with cap := some .falling } } := by
  simp [captureOp, State.irRuns, selectedEdge, hi, hh, he, hf]

/-- A rising-edge capture. -/
theorem captureOp_rising {s : State} (hi : s.icie = true) (hh : s.wires.hold = false) (he : s.ices = true)
    (hr : s.wires.rise = true) :
    captureOp s = { s with icr := s.tcnt, ices := false, wires := { s.wires with cap := some .rising } } := by
  simp [captureOp, State.irRuns, selectedEdge, hi, hh, he, hr]

/-- No capture. -/
theorem captureOp_none {s : State} (h : ¬ CaptureDue s) :
    captureOp s = { s with wires := { s.wires with cap := none } } := by
  have : (if s.irRuns then selectedEdge s.ices s.wires.fall s.wires.rise else none) = none := by
    simp only [CaptureDue, not_and_or] at h
    unfold State.irRuns selectedEdge
    cases hi : s.icie <;> cases hh : s.wires.hold <;> cases he : s.ices <;> cases hf : s.wires.fall <;>
      cases hr : s.wires.rise <;> simp_all
  simp [captureOp, this]

/-- Everything `CAPTURE` can do. -/
theorem captureOp_cases (s : State) :
    (¬ CaptureDue s ∧ captureOp s = { s with wires := { s.wires with cap := none } })
    ∨ (CaptureDue s ∧ s.ices = false ∧ s.wires.fall = true ∧ captureOp s = { s with
        icr := s.tcnt, capStart := s.tcnt, ices := true, wires := { s.wires with cap := some .falling } })
    ∨ (CaptureDue s ∧ s.ices = true ∧ s.wires.rise = true ∧ captureOp s = { s with
        icr := s.tcnt, ices := false, wires := { s.wires with cap := some .rising } }) := by
  by_cases h : CaptureDue s
  · obtain ⟨hi, hh, ⟨he, hf⟩ | ⟨he, hr⟩⟩ := h
    · exact .inr (.inl ⟨⟨hi, hh, .inl ⟨he, hf⟩⟩, he, hf, captureOp_falling hi hh he hf⟩)
    · exact .inr (.inr ⟨⟨hi, hh, .inr ⟨he, hr⟩⟩, he, hr, captureOp_rising hi hh he hr⟩)
  · exact .inl ⟨h, captureOp_none h⟩

/-- Everything `WIDTH` can do. -/
theorem widthOp_eq (s : State) :
    widthOp s = { s with wires := { s.wires with
      width := if s.wires.cap = some .rising then some (pulseWidth s.cfg s.tcnt s.capStart) else none } } := by
  unfold widthOp
  split <;> simp_all

/-- One more tick of the counter lengthens every difference by one, modulo `2^W`. -/
theorem pulseWidth_countUp (c : Config) (t start : Nat) :
    pulseWidth c (countUp c t) start = (pulseWidth c t start + 1) % 2 ^ c.w := by
  unfold pulseWidth countUp
  rw [Nat.mod_add_mod, Nat.mod_add_mod, Nat.add_right_comm]

/-- In the tick after a capture the difference is 1. -/
theorem pulseWidth_countUp_self (c : Config) (t : Nat) : pulseWidth c (countUp c t) t = 1 % 2 ^ c.w := by
  rw [pulseWidth_countUp]
  have hp : 0 < 2 ^ c.w := Nat.pos_of_ne_zero (by simp)
  have h0 : pulseWidth c t t = 0 := by
    unfold pulseWidth
    have h2 : t % 2 ^ c.w < 2 ^ c.w := Nat.mod_lt _ hp
    have h3 : 2 ^ c.w * (t / 2 ^ c.w) + t % 2 ^ c.w = t := Nat.div_add_mod t (2 ^ c.w)
    have h4 : t + (2 ^ c.w - t % 2 ^ c.w) = 2 ^ c.w * (t / 2 ^ c.w + 1) := by
      rw [Nat.mul_add, Nat.mul_one]
      omega
    rw [h4, Nat.mul_mod_right]
  rw [h0, Nat.zero_add]

/-- A width is below `2^W`. -/
theorem pulseWidth_lt (c : Config) (t start : Nat) : pulseWidth c t start < 2 ^ c.w :=
  Nat.mod_lt _ (Nat.pos_of_ne_zero (by simp))

end Sys2Proof.Machine
end

