-- ==== Sys2Proof/Laws/Engines.lean ====
section
/-! SUPPORT. What each engine may write: the frame of every internal operation, and of the two engine steps. -/

namespace Sys2Proof.Machine

open Sys2Proof

/-- `s` with the registers and wires that the sequencer, the Debounce Engine and the Quadrature Decoder write taken
from `t`. -/
def State.pchPart (s t : State) : State :=
  { s with
    pchSt := t.pchSt
    dbCand := t.dbCand
    dbCnt := t.dbCnt
    dbTot := t.dbTot
    enRaw := t.enRaw
    enCnt := t.enCnt
    enTot := t.enTot
    encA := t.encA
    encB := t.encB
    wires := { s.wires with
      clr := t.wires.clr
      posts := { s.wires.posts with db := t.wires.posts.db, A := t.wires.posts.A, B := t.wires.posts.B } }
    out := { s.out with rejects := t.out.rejects } }

/-- `s` with the registers and wires that the capture unit and the IR decoder write taken from `t`. -/
def State.irPart (s t : State) : State :=
  { s with
    icr := t.icr
    ices := t.ices
    capStart := t.capStart
    irSt := t.irSt
    irCnt := t.irCnt
    bitIdx := t.bitIdx
    pkt := t.pkt
    wires := { s.wires with
      cap := t.wires.cap
      width := t.wires.width
      packet := t.wires.packet
      posts := { s.wires.posts with ir := t.wires.posts.ir } }
    out := { s.out with rejects := t.out.rejects } }

/-- `t` differs from `s` only where the sequencer's units write. -/
def PchFrame (s t : State) : Prop := t = s.pchPart t

/-- `t` differs from `s` only where the capture unit and the IR decoder write. -/
def IrFrame (s t : State) : Prop := t = s.irPart t

theorem PchFrame.refl (s : State) : PchFrame s s := rfl

theorem IrFrame.refl (s : State) : IrFrame s s := rfl

theorem PchFrame.trans {s t u : State} (h : PchFrame s t) (h' : PchFrame t u) : PchFrame s u :=
  calc u = t.pchPart u := h'
    _ = (s.pchPart t).pchPart u := congrArg (fun x => State.pchPart x u) h
    _ = s.pchPart u := rfl

theorem IrFrame.trans {s t u : State} (h : IrFrame s t) (h' : IrFrame t u) : IrFrame s u :=
  calc u = t.irPart u := h'
    _ = (s.irPart t).irPart u := congrArg (fun x => State.irPart x u) h
    _ = s.irPart u := rfl

theorem withEnc_frame (s : State) (k : Knob) (e : EncState) : PchFrame s (s.withEnc k e) := by
  cases k <;> rfl

theorem withButton_knob_frame (s : State) (k : Knob) (b : LogicalButton) :
    PchFrame s (s.withButton (knobPort k) b) := by
  unfold State.withButton
  cases k <;> split <;> rfl

theorem stepKnob_frame (k : Knob) (old new : Quadrant) (s : State) : PchFrame s (stepKnob k old new s) := by
  unfold stepKnob
  extract_lets b e stored
  have h : PchFrame s stored := withEnc_frame ..
  split
  · exact h.trans (withButton_knob_frame ..)
  · exact h

theorem transition_frame (k : Knob) (old new : Quadrant) (s : State) : PchFrame s (transition k old new s) := by
  unfold transition
  split
  · exact stepKnob_frame ..
  · exact withEnc_frame ..

theorem qstepOp_frame (k : Knob) (s : State) : PchFrame s (qstepOp k s) := transition_frame ..

theorem ensampleOp_frame (s : State) : PchFrame s (ensampleOp s) :=
  ((qstepOp_frame .A s).trans (qstepOp_frame .B _)).trans rfl

theorem enabortOp_frame (s : State) : PchFrame s (enabortOp s) := rfl

theorem enterSettle_frame (s : State) : PchFrame s (enterSettle s) := by
  unfold enterSettle
  extract_lets entered
  have h : PchFrame s entered := rfl
  split
  · exact h.trans (ensampleOp_frame _)
  · exact h

theorem ensettleOp_frame (s : State) : PchFrame s (ensettleOp s) := by
  unfold ensettleOp
  split
  · extract_lets tot c counted
    have h : PchFrame s counted := rfl
    split
    · exact h.trans (ensampleOp_frame _)
    · split
      · exact h.trans (enabortOp_frame _)
      · exact h
  · exact .refl s

theorem enterDebounce_frame (s : State) : PchFrame s (enterDebounce s) := by
  unfold enterDebounce
  split <;> rfl

theorem dbstartOp_frame (s : State) : PchFrame s (dbstartOp s) := by
  unfold dbstartOp
  split
  · exact .refl s
  · exact enterDebounce_frame s

theorem pcstartOp_frame (s : State) : PchFrame s (pcstartOp s) := by
  unfold pcstartOp
  have h : PchFrame s s.withClr := rfl
  split
  · split
    · exact h.trans (enterSettle_frame _)
    · exact h.trans (enterDebounce_frame _)
  · exact .refl s

theorem dbabortOp_frame (s : State) : PchFrame s (dbabortOp s) :=
  PchFrame.trans (t := (s.withReject .debounceBound).withClr) rfl (enterSettle_frame _)

theorem dbqualOp_frame (s : State) : PchFrame s (dbqualOp s) := by
  unfold dbqualOp
  split
  · extract_lets tot c restarted
    split
    · split
      · rfl
      · split
        · exact PchFrame.trans (t := { s with dbTot := tot, dbCnt := c }) rfl (dbabortOp_frame _)
        · rfl
    · split
      · exact PchFrame.trans (t := (State.withReject { s with dbTot := tot } .shortPress).withClr) rfl
          (enterSettle_frame _)
      · split
        · exact PchFrame.trans (t := restarted) rfl (dbabortOp_frame _)
        · rfl
  · exact .refl s

theorem dbrelOp_frame (s : State) : PchFrame s (dbrelOp s) := by
  unfold dbrelOp
  split
  · extract_lets tot c counted
    have h : PchFrame s counted := rfl
    split
    · exact PchFrame.trans (t := (counted.withPost .db (maskCode s.dbCand)).withClr) rfl (enterSettle_frame _)
    · split
      · exact h.trans (dbabortOp_frame _)
      · exact h
  · exact .refl s

/-- The sequencer's step writes only the registers of its units. -/
theorem pchStep_frame (s : State) : PchFrame s (pchStep s) := by
  unfold pchStep
  split
  · exact pcstartOp_frame s
  · exact dbqualOp_frame s
  · exact dbrelOp_frame s
  · exact ensettleOp_frame s

theorem captureOp_frame (s : State) : IrFrame s (captureOp s) := by
  unfold captureOp
  split <;> rfl

theorem widthOp_frame (s : State) : IrFrame s (widthOp s) := by
  unfold widthOp
  split <;> rfl

theorem withButton_ir_frame (s : State) (b : LogicalButton) : IrFrame s (s.withButton .ir b) := by
  unfold State.withButton
  split <;> rfl

theorem leadOp_frame (s : State) : IrFrame s (leadOp s) := by
  unfold leadOp
  split <;> rfl

theorem notLeadOp_frame (s : State) : IrFrame s (notLeadOp s) := by
  unfold notLeadOp
  split <;> rfl

theorem storeBit_frame (b : Bool) (s : State) : IrFrame s (storeBit b s) := by
  unfold storeBit
  split <;> rfl

theorem zeroOp_frame (s : State) : IrFrame s (zeroOp s) := by
  unfold zeroOp
  split
  · exact storeBit_frame ..
  · rfl

theorem oneOp_frame (s : State) : IrFrame s (oneOp s) := by
  unfold oneOp
  split
  · exact storeBit_frame ..
  · rfl

theorem badOp_frame (s : State) : IrFrame s (badOp s) := by
  unfold badOp
  split <;> rfl

theorem acceptCommand_frame (p : Packet) (s : State) : IrFrame s (acceptCommand p s) :=
  (withButton_ir_frame s _).trans rfl

theorem irarmOp_frame (s : State) : IrFrame s (irarmOp s) := by
  unfold irarmOp
  split <;> rfl

theorem irsyncOp_frame (s : State) : IrFrame s (irsyncOp s) := by
  unfold irsyncOp
  extract_lets t
  have h : IrFrame s t := rfl
  split
  · split
    · split
      · exact h.trans (leadOp_frame _)
      · exact h.trans (notLeadOp_frame _)
    · exact h
  · exact h.trans rfl
  · rfl

theorem irbitOp_frame (s : State) : IrFrame s (irbitOp s) := by
  unfold irbitOp
  extract_lets t
  have h : IrFrame s t := rfl
  split
  · exact h.trans rfl
  · split
    · split
      · exact h.trans (zeroOp_frame _)
      · split
        · exact h.trans (oneOp_frame _)
        · exact h.trans (badOp_frame _)
    · exact h
  · rfl

theorem iraddrOp_frame (s : State) : IrFrame s (iraddrOp s) := by
  unfold iraddrOp
  split
  · rfl
  · split <;> rfl

theorem ircmdOp_frame (s : State) : IrFrame s (ircmdOp s) := by
  unfold ircmdOp
  split
  · rfl
  · exact acceptCommand_frame ..

theorem irrelOp_frame (s : State) : IrFrame s (irrelOp s) := by
  unfold irrelOp
  split <;> rfl

theorem irtimeoutOp_frame (s : State) : IrFrame s (irtimeoutOp s) := by
  unfold irtimeoutOp
  split
  · extract_lets counted idle
    split
    · split <;> rfl
    · rfl
  · rfl

/-- The decoder's step writes only its own registers and the capture unit's. -/
theorem irStep_frame (s : State) : IrFrame s (irStep s) := by
  unfold irStep
  extract_lets t
  have h : IrFrame s t := (captureOp_frame s).trans (widthOp_frame _)
  split
  · exact h.trans (irtimeoutOp_frame _)
  · split
    · exact h.trans (irarmOp_frame _)
    · exact h.trans (irsyncOp_frame _)
    · exact h.trans (irsyncOp_frame _)
    · exact h.trans (irbitOp_frame _)
    · exact ((h.trans (irbitOp_frame _)).trans (iraddrOp_frame _)).trans (ircmdOp_frame _)
    · exact h.trans (irrelOp_frame _)

end Sys2Proof.Machine
end

