-- ==== Sys2Proof/Laws/Quadrature.lean ====
section
/-! SUPPORT. What the Quadrature Decoder's operations can do, each said once: a knob's registers and its post after a
transition, and the sample of both knobs. -/

namespace Sys2Proof.Machine

open Sys2Proof

/-- A knob's registers after the transition `{old, new}`. -/
def knobAfter (c : Config) (old new : Quadrant) (e : EncState) : EncState :=
  if e.initialized then { e with quadrant := new, blips := storedBlips c new (countBlip old new e.blips) }
  else { e with quadrant := new, initialized := true }

/-- The value a knob's transition posts, if it posts. -/
def knobPost (c : Config) (k : Knob) (old new : Quadrant) (e : EncState) : Option Byte :=
  if e.initialized then (detentButton c k (countBlip old new e.blips)).map LogicalButton.code else none

/-- A post port after an operation that may post on it. -/
def portAfter (before : Option Byte) : Option Byte → Option Byte
  | some v => some v
  | none => before

@[simp] theorem portAfter_none (before : Option Byte) : portAfter before none = before := rfl

@[simp] theorem portAfter_some (before : Option Byte) (v : Byte) : portAfter before (some v) = some v := rfl

/-- A button other than `None` is posted. -/
theorem State.withButton_some {b : LogicalButton} (h : b ≠ .noButton) (s : State) (p : PostPort) :
    s.withButton p b = s.withPost p b.code := if_neg h

/-- `None` is not posted. -/
@[simp] theorem State.withButton_noButton (s : State) (p : PostPort) : s.withButton p .noButton = s := rfl

/-- An encoder event is never `None`. -/
theorem detentButton_posts {c : Config} {k : Knob} {n : Int} {b : LogicalButton} (h : detentButton c k n = some b) :
    b ≠ .noButton := by
  unfold detentButton at h
  split at h
  · cases k <;> (cases h; decide)
  · split at h
    · cases k <;> (cases h; decide)
    · cases h

/-- Everything a transition of knob A can do. -/
theorem transition_A (old new : Quadrant) (s : State) :
    transition .A old new s = { s with
      encA := knobAfter s.cfg old new s.encA
      wires := { s.wires with posts := { s.wires.posts with
        A := portAfter s.wires.posts.A (knobPost s.cfg .A old new s.encA) } } } := by
  unfold transition stepKnob seedKnob knobAfter knobPost
  by_cases hi : s.encA.initialized = true
  · cases h : detentButton s.cfg .A (countBlip old new s.encA.blips) with
    | none => simp [hi, h, State.enc, State.withEnc]
    | some b =>
      simp [hi, h, State.enc, State.withEnc, knobPort, State.withButton_some (detentButton_posts h), State.withPost]
  · simp [hi, State.enc, State.withEnc]

/-- Everything a transition of knob B can do. -/
theorem transition_B (old new : Quadrant) (s : State) :
    transition .B old new s = { s with
      encB := knobAfter s.cfg old new s.encB
      wires := { s.wires with posts := { s.wires.posts with
        B := portAfter s.wires.posts.B (knobPost s.cfg .B old new s.encB) } } } := by
  unfold transition stepKnob seedKnob knobAfter knobPost
  by_cases hi : s.encB.initialized = true
  · cases h : detentButton s.cfg .B (countBlip old new s.encB.blips) with
    | none => simp [hi, h, State.enc, State.withEnc]
    | some b =>
      simp [hi, h, State.enc, State.withEnc, knobPort, State.withButton_some (detentButton_posts h), State.withPost]
  · simp [hi, State.enc, State.withEnc]

/-- The quadrant of a knob at this tick's sample. -/
def State.sampledQuadrant (s : State) (k : Knob) : Quadrant := gray2bin (knobSample k s.wires.inp.enc)

/-- Everything the sample of both knobs can do. -/
theorem ensampleOp_eq (s : State) :
    ensampleOp s = { s with
      pchSt := .idle
      encA := knobAfter s.cfg s.encA.quadrant (s.sampledQuadrant .A) s.encA
      encB := knobAfter s.cfg s.encB.quadrant (s.sampledQuadrant .B) s.encB
      wires := { s.wires with posts := { s.wires.posts with
        A := portAfter s.wires.posts.A (knobPost s.cfg .A s.encA.quadrant (s.sampledQuadrant .A) s.encA)
        B := portAfter s.wires.posts.B (knobPost s.cfg .B s.encB.quadrant (s.sampledQuadrant .B) s.encB) } } } := by
  unfold ensampleOp qstepOp
  rw [transition_A, transition_B]
  rfl

/-- A transition of a count that is out by less than a detent stores a count that is. -/
theorem storedBlips_range {c : Config} {old new : Quadrant} {b : Int} (hl : -(c.blipsPerDetent : Int) < b)
    (hh : b < c.blipsPerDetent) :
    -(c.blipsPerDetent : Int) < storedBlips c new (countBlip old new b)
      ∧ storedBlips c new (countBlip old new b) < c.blipsPerDetent := by
  unfold storedBlips countBlip
  split_ifs <;> omega

/-- The count at quadrant 0 is 0. -/
@[simp] theorem storedBlips_zero (c : Config) (b : Int) : storedBlips c 0#2 b = 0 := by simp [storedBlips]

/-- Whatever is posted for a knob is one of its two codes. -/
theorem knobPost_cases {c : Config} {k : Knob} {old new : Quadrant} {e : EncState} {v : Byte} (h : knobPost c k old new e = some v) :
    v = (increaseButton k).code ∨ v = (decreaseButton k).code := by
  unfold knobPost detentButton at h
  split at h
  · split at h
    · simp at h
      exact .inl h.symm
    · split at h
      · simp at h
        exact .inr h.symm
      · simp at h
  · simp at h

end Sys2Proof.Machine
end

