-- ==== Sys2Proof/Laws/Sequencer.lean ====
section
/-! SUPPORT. What a step of the handler sequencer can do: to the knobs, to the Debounce Engine's port and to the
latched mask. -/

namespace Sys2Proof.Machine

open Sys2Proof

/-- `t` has the knobs and their posts as `s`. -/
def KnobsKept (s t : State) : Prop :=
  t.encA = s.encA ∧ t.encB = s.encB ∧ t.wires.posts.A = s.wires.posts.A ∧ t.wires.posts.B = s.wires.posts.B

/-- `t` has the knobs of `s` after this tick's sample, and the sequencer idle. -/
def KnobsSampled (s t : State) : Prop :=
  t.pchSt = .idle
    ∧ t.encA = knobAfter s.cfg s.encA.quadrant (s.sampledQuadrant .A) s.encA
    ∧ t.encB = knobAfter s.cfg s.encB.quadrant (s.sampledQuadrant .B) s.encB
    ∧ t.wires.posts.A
        = portAfter s.wires.posts.A (knobPost s.cfg .A s.encA.quadrant (s.sampledQuadrant .A) s.encA)
    ∧ t.wires.posts.B
        = portAfter s.wires.posts.B (knobPost s.cfg .B s.encB.quadrant (s.sampledQuadrant .B) s.encB)

theorem ensampleOp_knobs (s : State) : KnobsSampled s (ensampleOp s) := by
  rw [ensampleOp_eq]
  exact ⟨rfl, rfl, rfl, rfl, rfl⟩

/-- Entering the settle window opens it, or with `T_SETTLE = 1` takes the sample. -/
theorem enterSettle_knobs (s : State) :
    (1 < s.cfg.tSettle ∧ (enterSettle s).pchSt = .enSettle ∧ KnobsKept s (enterSettle s))
      ∨ (s.cfg.tSettle ≤ 1 ∧ KnobsSampled s (enterSettle s)) := by
  unfold enterSettle
  extract_lets entered
  split
  · rename_i h
    exact .inr ⟨h, ensampleOp_knobs entered⟩
  · rename_i h
    exact .inl ⟨Nat.lt_of_not_le h, rfl, rfl, rfl, rfl, rfl⟩

/-- The Debounce Engine's port, `pc` flag and latched mask pass through the settle window. -/
theorem ensampleOp_db (s : State) :
    (ensampleOp s).wires.posts.db = s.wires.posts.db ∧ (ensampleOp s).dbCand = s.dbCand
      ∧ (ensampleOp s).wires.clr = s.wires.clr ∧ (ensampleOp s).pchSt = .idle := by
  rw [ensampleOp_eq]
  exact ⟨rfl, rfl, rfl, rfl⟩

theorem enterSettle_db (s : State) :
    (enterSettle s).wires.posts.db = s.wires.posts.db ∧ (enterSettle s).dbCand = s.dbCand
      ∧ (enterSettle s).wires.clr = s.wires.clr
      ∧ ((enterSettle s).pchSt = .enSettle ∨ (enterSettle s).pchSt = .idle) := by
  unfold enterSettle
  extract_lets entered
  split
  · obtain ⟨h1, h2, h3, h4⟩ := ensampleOp_db entered
    exact ⟨h1, h2, h3, .inr h4⟩
  · exact ⟨rfl, rfl, rfl, .inl rfl⟩

/-- The sequencer steps only while it is enabled and no `INIT` holds it. -/
theorem pchStep_held {s : State} (h : s.pchRuns = false) : pchStep s = s := by
  unfold pchStep pcstartOp dbqualOp dbrelOp ensettleOp
  cases s.pchSt <;> simp [h]

/-- An idle sequencer without the flag stays. -/
theorem pchStep_idle {s : State} (h : s.pchSt = .idle) (hf : s.pcif = false) : pchStep s = s := by
  simp [pchStep, pcstartOp, h, hf]

/-- What a step of the sequencer does to the knobs: nothing, or one sample of both, and the sample only where a settle
window may end. -/
theorem pchStep_knobs (s : State) :
    KnobsKept s (pchStep s)
      ∨ (s.pchRuns = true ∧ (s.pchSt = .enSettle ∨ s.cfg.tSettle ≤ 1) ∧ KnobsSampled s (pchStep s)) := by
  by_cases hr : s.pchRuns = true
  swap
  · rw [pchStep_held (by simpa using hr)]
    exact .inl ⟨rfl, rfl, rfl, rfl⟩
  have settle : ∀ u : State, u.cfg = s.cfg → u.encA = s.encA → u.encB = s.encB → u.wires.inp = s.wires.inp →
      u.wires.posts.A = s.wires.posts.A → u.wires.posts.B = s.wires.posts.B →
      KnobsKept s (enterSettle u)
        ∨ (s.pchRuns = true ∧ (s.pchSt = .enSettle ∨ s.cfg.tSettle ≤ 1) ∧ KnobsSampled s (enterSettle u)) := by
    intro u hc ha hb hi hA hB
    obtain ⟨-, -, h⟩ | ⟨h1, h⟩ := enterSettle_knobs u
    · unfold KnobsKept at *
      rw [ha, hb, hA, hB] at h
      exact .inl h
    · unfold KnobsSampled State.sampledQuadrant at *
      rw [ha, hb, hA, hB, hi, hc] at h
      exact .inr ⟨hr, .inr (hc ▸ h1), h⟩
  unfold pchStep
  split
  · unfold pcstartOp
    split
    · split
      · exact settle _ rfl rfl rfl rfl rfl rfl
      · unfold enterDebounce
        split <;> exact .inl ⟨rfl, rfl, rfl, rfl⟩
    · exact .inl ⟨rfl, rfl, rfl, rfl⟩
  · unfold dbqualOp
    split
    · extract_lets tot c restarted
      split
      · split
        · exact .inl ⟨rfl, rfl, rfl, rfl⟩
        · split
          · exact settle _ rfl rfl rfl rfl rfl rfl
          · exact .inl ⟨rfl, rfl, rfl, rfl⟩
      · split
        · exact settle _ rfl rfl rfl rfl rfl rfl
        · split
          · exact settle _ rfl rfl rfl rfl rfl rfl
          · exact .inl ⟨rfl, rfl, rfl, rfl⟩
    · exact .inl ⟨rfl, rfl, rfl, rfl⟩
  · unfold dbrelOp
    split
    · extract_lets tot c counted
      split
      · exact settle _ rfl rfl rfl rfl rfl rfl
      · split
        · exact settle _ rfl rfl rfl rfl rfl rfl
        · exact .inl ⟨rfl, rfl, rfl, rfl⟩
    · exact .inl ⟨rfl, rfl, rfl, rfl⟩
  · rename_i hs
    unfold ensettleOp
    split
    · extract_lets tot c counted
      split
      · exact .inr ⟨hr, .inl hs, ensampleOp_knobs counted⟩
      · split <;> exact .inl ⟨rfl, rfl, rfl, rfl⟩
    · exact .inl ⟨rfl, rfl, rfl, rfl⟩

/-- What a step of the sequencer does to the Debounce Engine's port and to its latched mask: the post is the latched
mask and ends the release wait; a state with a latched mask has this tick's mask, not empty, or the one it had. -/
theorem pchStep_db (s : State) :
    ((pchStep s).wires.posts.db = s.wires.posts.db
        ∨ (s.pchRuns = true ∧ s.pchSt = .dbRel ∧ (pchStep s).wires.posts.db = some (maskCode s.dbCand)))
      ∧ ((pchStep s).pchSt = .dbQual ∨ (pchStep s).pchSt = .dbRel →
        ((pchStep s).dbCand = s.mask ∧ s.mask ≠ 0#6)
          ∨ ((pchStep s).dbCand = s.dbCand ∧ (s.pchSt = .dbQual ∨ s.pchSt = .dbRel))) := by
  have settle : ∀ u : State, u.wires.posts.db = s.wires.posts.db →
      ((enterSettle u).wires.posts.db = s.wires.posts.db
        ∨ (s.pchRuns = true ∧ s.pchSt = .dbRel ∧ (enterSettle u).wires.posts.db = some (maskCode s.dbCand)))
      ∧ ((enterSettle u).pchSt = .dbQual ∨ (enterSettle u).pchSt = .dbRel →
        ((enterSettle u).dbCand = s.mask ∧ s.mask ≠ 0#6)
          ∨ ((enterSettle u).dbCand = s.dbCand ∧ (s.pchSt = .dbQual ∨ s.pchSt = .dbRel))) := by
    intro u hu
    obtain ⟨h1, -, -, h4⟩ := enterSettle_db u
    refine ⟨.inl (h1.trans hu), fun h => ?_⟩
    rcases h with h | h <;> rcases h4 with h4 | h4 <;> rw [h4] at h <;> cases h
  unfold pchStep
  split
  · rename_i hs
    unfold pcstartOp
    split
    · split
      · exact settle _ rfl
      · rename_i hm
        unfold enterDebounce
        split <;> exact ⟨.inl rfl, fun _ => .inl ⟨rfl, hm⟩⟩
    · exact ⟨.inl rfl, fun h => .inr ⟨rfl, h⟩⟩
  · rename_i hs
    unfold dbqualOp
    split
    · extract_lets tot c restarted
      split
      · split
        · exact ⟨.inl rfl, fun _ => .inr ⟨rfl, .inl hs⟩⟩
        · split
          · exact settle _ rfl
          · exact ⟨.inl rfl, fun _ => .inr ⟨rfl, .inl hs⟩⟩
      · split
        · exact settle _ rfl
        · rename_i hm
          split
          · exact settle _ rfl
          · exact ⟨.inl rfl, fun _ => .inl ⟨rfl, hm⟩⟩
    · exact ⟨.inl rfl, fun h => .inr ⟨rfl, h⟩⟩
  · rename_i hs
    unfold dbrelOp
    split
    · rename_i hg
      extract_lets tot c counted
      split
      · obtain ⟨h1, -, -, h4⟩ := enterSettle_db (counted.withPost .db (maskCode s.dbCand)).withClr
        simp only [Bool.and_eq_true] at hg
        refine ⟨.inr ⟨hg.1, hs, h1⟩, fun h => ?_⟩
        rcases h with h | h <;> rcases h4 with h4 | h4 <;> rw [h4] at h <;> cases h
      · split
        · exact settle _ rfl
        · exact ⟨.inl rfl, fun _ => .inr ⟨rfl, .inr hs⟩⟩
    · exact ⟨.inl rfl, fun h => .inr ⟨rfl, h⟩⟩
  · rename_i hs
    unfold ensettleOp
    split
    · extract_lets tot c counted
      split
      · obtain ⟨h1, -, -, h4⟩ := ensampleOp_db counted
        refine ⟨.inl h1, fun h => ?_⟩
        rcases h with h | h <;> rw [h4] at h <;> cases h
      · split
        · exact ⟨.inl rfl, fun h => by rcases h with h | h <;> cases h⟩
        · exact ⟨.inl rfl, fun h => .inr ⟨rfl, h⟩⟩
    · exact ⟨.inl rfl, fun h => .inr ⟨rfl, h⟩⟩

end Sys2Proof.Machine
end

