-- ==== Sys2Proof/Laws/Decoder.lean ====
section
/-! SUPPORT. What a step of the IR decoder can do: the capture in front of it, the operation of each state, its post. -/

namespace Sys2Proof.Machine

open Sys2Proof

/-- Capture and width at a falling edge. -/
theorem captured_falling {s : State} (hd : CaptureDue s) (he : s.ices = false) (hf : s.wires.fall = true) :
    widthOp (captureOp s) = { s with
      icr := s.tcnt
      capStart := s.tcnt
      ices := true
      wires := { s.wires with cap := some .falling, width := none } } := by
  rw [captureOp_falling hd.1 hd.2.1 he hf, widthOp_eq]
  rfl

/-- Capture and width at a rising edge. -/
theorem captured_rising {s : State} (hd : CaptureDue s) (he : s.ices = true) (hr : s.wires.rise = true) :
    widthOp (captureOp s) = { s with
      icr := s.tcnt
      ices := false
      wires := { s.wires with cap := some .rising, width := some (pulseWidth s.cfg s.tcnt s.capStart) } } := by
  rw [captureOp_rising hd.1 hd.2.1 he hr, widthOp_eq]
  rfl

/-- Capture and width in a tick without a capture. -/
theorem captured_none {s : State} (hd : ¬ CaptureDue s) :
    widthOp (captureOp s) = { s with wires := { s.wires with cap := none, width := none } } := by
  rw [captureOp_none hd, widthOp_eq]
  rfl

/-- A capture stands on its wire exactly when it is due. -/
theorem captured_isSome (s : State) : (widthOp (captureOp s)).wires.cap ≠ none ↔ CaptureDue s := by
  by_cases hd : CaptureDue s
  · obtain ⟨-, -, ⟨he, hf⟩ | ⟨he, hr⟩⟩ := id hd
    · rw [captured_falling hd he hf]
      exact iff_of_true (by simp) hd
    · rw [captured_rising hd he hr]
      exact iff_of_true (by simp) hd
  · rw [captured_none hd]
    exact iff_of_false (by simp) hd

/-- The decoder's step in a tick without a capture is the time-out's. -/
theorem irStep_quiet {s : State} (hd : ¬ CaptureDue s) :
    irStep s = irtimeoutOp { s with wires := { s.wires with cap := none, width := none } } := by
  unfold irStep
  rw [captured_none hd]

/-- The decoder's step in a tick with a capture is the operation of its state. -/
theorem irStep_captured {s : State} (hd : CaptureDue s) :
    irStep s = (match s.irSt with
      | .idle => irarmOp (widthOp (captureOp s))
      | .syncLow => irsyncOp (widthOp (captureOp s))
      | .syncGap => irsyncOp (widthOp (captureOp s))
      | .bitGap => irbitOp (widthOp (captureOp s))
      | .bitLow => ircmdOp (iraddrOp (irbitOp (widthOp (captureOp s))))
      | .rel => irrelOp (widthOp (captureOp s))) := by
  have h := (captured_isSome s).2 hd
  unfold irStep
  generalize widthOp (captureOp s) = t at *
  cases hc : t.wires.cap with
  | none => exact absurd hc h
  | some e => simp only [hc] <;> rfl

/-- The capture unit and the decoder step only while they are enabled and no `INIT` holds them. -/
theorem irStep_held {s : State} (h : s.irRuns = false) :
    irStep s = { s with wires := { s.wires with cap := none, width := none } } := by
  have hd : ¬ CaptureDue s := fun hd => by simp [State.irRuns, hd.1, hd.2.1] at h
  rw [irStep_quiet hd]
  unfold irtimeoutOp
  simp only [State.irRuns] at h ⊢
  simp [h]

/-- Storing a bit posts nothing and goes on to the next gap, or after the twelfth hands the packet over. -/
theorem storeBit_eq (b : Bool) (s : State) :
    (lastBit s.cfg s.bitIdx = true ∧ storeBit b s = { s with
        pkt := storedPacket s.pkt s.bitIdx b
        wires := { s.wires with packet := some (storedPacket s.pkt s.bitIdx b) } })
      ∨ (lastBit s.cfg s.bitIdx = false ∧ storeBit b s = { s with
        pkt := storedPacket s.pkt s.bitIdx b, bitIdx := s.bitIdx + 1#4, irSt := .bitGap }) := by
  unfold storeBit
  cases lastBit s.cfg s.bitIdx
  · exact .inr ⟨rfl, rfl⟩
  · exact .inl ⟨rfl, rfl⟩

/-- An accepted command: its post if it is recognised, and the release wait. -/
theorem acceptCommand_eq (p : Packet) (s : State) :
    acceptCommand p s = { s with
      irSt := .rel
      wires := { s.wires with posts := { s.wires.posts with
        ir := if s.cfg.commandButton (packetCmd p) = .noButton then s.wires.posts.ir
          else some (s.cfg.commandButton (packetCmd p)).code } } } := by
  unfold acceptCommand State.withButton
  split <;> rfl

/-- The end of the pulse that may complete a packet: everything `IRBIT`, `IRADDR` and `IRCMD` can do in a tick. -/
theorem endOfBit_cases {s : State} (hp : s.wires.packet = none) (hs : s.irSt = .bitLow) (hc : s.wires.cap ≠ none) :
    (s.wires.width = none ∧ ircmdOp (iraddrOp (irbitOp s)) = { s with irCnt := 0 })
      ∨ (∃ w, s.wires.width = some w ∧ decodeDataPulse s.cfg w = .symBad
        ∧ ircmdOp (iraddrOp (irbitOp s)) = { s.withReject .badWidth with irCnt := 0, irSt := .syncGap })
      ∨ (∃ w b, s.wires.width = some w ∧ decodeDataPulse s.cfg w = bitSymbol b ∧ lastBit s.cfg s.bitIdx = false
        ∧ ircmdOp (iraddrOp (irbitOp s)) = { s with
            irCnt := 0, pkt := storedPacket s.pkt s.bitIdx b, bitIdx := s.bitIdx + 1#4, irSt := .bitGap })
      ∨ (∃ w b, s.wires.width = some w ∧ decodeDataPulse s.cfg w = bitSymbol b ∧ lastBit s.cfg s.bitIdx = true
        ∧ packetAddr (storedPacket s.pkt s.bitIdx b) ≠ s.cfg.rxAddr
        ∧ ircmdOp (iraddrOp (irbitOp s)) = { s.withReject .wrongAddress with
            irCnt := 0, pkt := storedPacket s.pkt s.bitIdx b, irSt := .syncGap })
      ∨ (∃ w b, s.wires.width = some w ∧ decodeDataPulse s.cfg w = bitSymbol b ∧ lastBit s.cfg s.bitIdx = true
        ∧ packetAddr (storedPacket s.pkt s.bitIdx b) = s.cfg.rxAddr
        ∧ ircmdOp (iraddrOp (irbitOp s)) = acceptCommand (storedPacket s.pkt s.bitIdx b) { s with
            irCnt := 0
            pkt := storedPacket s.pkt s.bitIdx b
            wires := { s.wires with packet := some (storedPacket s.pkt s.bitIdx b) } }) := by
  obtain ⟨e, he⟩ := Option.ne_none_iff_exists'.1 hc
  have stored : ∀ w b, s.wires.width = some w → decodeDataPulse s.cfg w = bitSymbol b →
      irbitOp s = storeBit b { s with irCnt := 0 } →
      (lastBit s.cfg s.bitIdx = false
        ∧ ircmdOp (iraddrOp (irbitOp s)) = { s with
            irCnt := 0, pkt := storedPacket s.pkt s.bitIdx b, bitIdx := s.bitIdx + 1#4, irSt := .bitGap })
      ∨ (lastBit s.cfg s.bitIdx = true
        ∧ packetAddr (storedPacket s.pkt s.bitIdx b) ≠ s.cfg.rxAddr
        ∧ ircmdOp (iraddrOp (irbitOp s)) = { s.withReject .wrongAddress with
            irCnt := 0, pkt := storedPacket s.pkt s.bitIdx b, irSt := .syncGap })
      ∨ (lastBit s.cfg s.bitIdx = true
        ∧ packetAddr (storedPacket s.pkt s.bitIdx b) = s.cfg.rxAddr
        ∧ ircmdOp (iraddrOp (irbitOp s)) = acceptCommand (storedPacket s.pkt s.bitIdx b) { s with
            irCnt := 0
            pkt := storedPacket s.pkt s.bitIdx b
            wires := { s.wires with packet := some (storedPacket s.pkt s.bitIdx b) } }) := by
    intro w b hw hd hb
    have hk : { s.wires with packet := none } = s.wires := by rw [← hp]
    rw [hb]
    obtain ⟨hl, h⟩ | ⟨hl, h⟩ := storeBit_eq b { s with irCnt := 0 }
    · rw [h]
      by_cases ha : packetAddr (storedPacket s.pkt s.bitIdx b) = s.cfg.rxAddr
      · refine .inr (.inr ⟨hl, ha, ?_⟩)
        simp only [iraddrOp, ha, if_true, ircmdOp]
      · refine .inr (.inl ⟨hl, ha, ?_⟩)
        simp only [iraddrOp, ha, if_false, ircmdOp, rejectAddress, State.withReject, State.mk.injEq, and_true,
          true_and]
        exact hk
    · rw [h]
      refine .inl ⟨hl, ?_⟩
      simp only [iraddrOp, ircmdOp, hp]
  cases hw : s.wires.width with
  | none =>
    refine .inl ⟨rfl, ?_⟩
    simp only [irbitOp, hs, he, hw, iraddrOp, ircmdOp, hp]
  | some w =>
    by_cases h0 : decodeDataPulse s.cfg w = .symZero
    · have hb : irbitOp s = storeBit false { s with irCnt := 0 } := by
        simp only [irbitOp, hs, he, hw, h0, if_true, zeroOp]
      obtain ⟨h1, h2⟩ | ⟨h1, h2, h3⟩ | ⟨h1, h2, h3⟩ := stored w false hw h0 hb
      · exact .inr (.inr (.inl ⟨w, false, rfl, h0, h1, h2⟩))
      · exact .inr (.inr (.inr (.inl ⟨w, false, rfl, h0, h1, h2, h3⟩)))
      · exact .inr (.inr (.inr (.inr ⟨w, false, rfl, h0, h1, h2, h3⟩)))
    · by_cases h1 : decodeDataPulse s.cfg w = .symOne
      · have hb : irbitOp s = storeBit true { s with irCnt := 0 } := by
          simp only [irbitOp, hs, he, hw, h1, if_true, oneOp, reduceCtorEq, if_false]
        obtain ⟨h3, h2⟩ | ⟨h4, h2, h3⟩ | ⟨h4, h2, h3⟩ := stored w true hw h1 hb
        · exact .inr (.inr (.inl ⟨w, true, rfl, h1, h3, h2⟩))
        · exact .inr (.inr (.inr (.inl ⟨w, true, rfl, h1, h4, h2, h3⟩)))
        · exact .inr (.inr (.inr (.inr ⟨w, true, rfl, h1, h4, h2, h3⟩)))
      · have hbad : decodeDataPulse s.cfg w = .symBad := by
          unfold decodeDataPulse at *
          split_ifs at * <;> first | rfl | contradiction
        refine .inr (.inl ⟨w, rfl, hbad, ?_⟩)
        simp only [irbitOp, hs, he, hw, h0, h1, if_false, badOp, if_true, iraddrOp, ircmdOp, State.withReject, hp]

end Sys2Proof.Machine
end

