-- ==== Sys2Proof/Laws/Tick.lean ====
section
/-! SUPPORT. What a step can do, once for all later proofs, and what each register is after the end of a tick. -/

namespace Sys2Proof.Machine

open Sys2Proof

/-- Every operation answers a next state: no meaning stops. -/
theorem exec_next (i : Instr) (s : State) : ∃ t, exec i s = .next t := by
  cases i <;> exact ⟨_, rfl⟩

/-- The scheduled lines are taken first. -/
theorem State.takeInputs_cons {s : State} {i : Inputs} {rest : List Inputs} (h : s.inputs = i :: rest) :
    s.takeInputs = (i, { s with inputs := rest }) := by
  unfold State.takeInputs
  rw [h]

/-- Taking the lines of a tick changes the schedule and its counter only. -/
theorem State.takeInputs_frame (s : State) :
    s.takeInputs.2 = { s with inputs := s.takeInputs.2.inputs, drawn := s.takeInputs.2.drawn } := by
  unfold State.takeInputs
  split <;> rfl

/-- Everything a step can do: a reset tick, or a tick around the host operation. -/
theorem step_cases {s t : State} (h : step s = .next t) :
    s.cfg.valid = true
      ∧ ((s.takeInputs.1.rst = true ∧ t = s.takeInputs.2.resetTick)
        ∨ (s.takeInputs.1.rst = false
          ∧ ∃ u, exec (decodeHost s.takeInputs.1.hostOp) (beginTick s.takeInputs.1 s.takeInputs.2) = .next u
            ∧ t = finishTick u)) := by
  unfold step at h
  split at h
  · rename_i hv
    refine ⟨hv, ?_⟩
    extract_lets i s1 at h
    split at h
    · rename_i hr
      exact .inl ⟨hr, by cases h; rfl⟩
    · rename_i hr
      refine .inr ⟨by simpa using hr, ?_⟩
      obtain ⟨u, hu⟩ := exec_next (decodeHost i.hostOp) (beginTick i s1)
      rw [hu] at h
      exact ⟨u, hu, by cases h; rfl⟩
  · cases h

/-- A reset tick on scheduled lines. -/
theorem step_reset {s : State} {i : Inputs} {rest : List Inputs} (hv : s.cfg.valid = true)
    (hi : s.inputs = i :: rest) (hr : i.rst = true) :
    step s = .next (State.resetTick { s with inputs := rest }) := by
  simp [step, hv, State.takeInputs_cons hi, hr]

/-- A tick without reset on scheduled lines, once the host operation's result is known. -/
theorem step_exec {s u : State} {i : Inputs} {rest : List Inputs} (hv : s.cfg.valid = true)
    (hi : s.inputs = i :: rest) (hr : i.rst = false)
    (hu : exec (decodeHost i.hostOp) (beginTick i { s with inputs := rest }) = .next u) :
    step s = .next (finishTick u) := by
  simp [step, hv, State.takeInputs_cons hi, hr, hu]

/-- The eight host operations, by code. -/
theorem exec_decodeHost (w : HostWord) (s : State) :
    exec (decodeHost w) s = .next (
      if w = 0b001#3 then initOp s
      else if w = 0b010#3 then popOp s
      else if w = 0b011#3 then peekOp s
      else if w = 0b100#3 then isanyOp s
      else noCall s) := by
  obtain h | h | h | h | h | h | h | h : w = 0#3 ∨ w = 1#3 ∨ w = 2#3 ∨ w = 3#3 ∨ w = 4#3 ∨ w = 5#3 ∨ w = 6#3 ∨ w = 7#3 := by
    revert w
    decide
  all_goals subst h; rfl

/-- The state at the end of phase P3: the host operation's result after both engines. -/
def enginesDone (u : State) : State := pchStep (irStep u)

/-- The registers after the end of a tick: the engines' own, the flag, the mailbox, the counter. -/
theorem finishTick_eq (u : State) :
    finishTick u = { enginesDone u with
      wires := Wires.idle
      pcif := if (enginesDone u).wires.hold then false
        else nextPcif (enginesDone u).pcif (enginesDone u).wires.clr (enginesDone u).pcie
          (pinsChanged (enginesDone u).pins (enginesDone u).pcPrev)
      pcPrev := (enginesDone u).pins
      evt := applyPost (applyPost (applyPost (applyPost (enginesDone u).evt (enginesDone u).wires.posts.db)
        (enginesDone u).wires.posts.A) (enginesDone u).wires.posts.B) (enginesDone u).wires.posts.ir
      tcnt := countUp (enginesDone u).cfg (enginesDone u).tcnt } := rfl

end Sys2Proof.Machine
end

