-- ==== Sys2Proof/Laws/Host.lean ====
section
/-! SUPPORT. What the host operation of a tick leaves for the engines, and that the engines neither read nor write what
the host port does: the response, the mailbox, the host's code. -/

namespace Sys2Proof.Machine

open Sys2Proof

/-- The state `u` between phases P2 and P3 of the tick that samples the lines `i` in state `s`. -/
structure HostDone (s : State) (i : Inputs) (u : State) : Prop where
  cfg : u.cfg = s.cfg
  tcnt : u.tcnt = s.tcnt
  icr : u.icr = s.icr
  capStart : u.capStart = s.capStart
  irCnt : u.irCnt = s.irCnt
  bitIdx : u.bitIdx = s.bitIdx
  pkt : u.pkt = s.pkt
  irPrev : u.irPrev = i.irIn
  pcPrev : u.pcPrev = s.pcPrev
  dbCand : u.dbCand = s.dbCand
  dbCnt : u.dbCnt = s.dbCnt
  dbTot : u.dbTot = s.dbTot
  enRaw : u.enRaw = s.enRaw
  enCnt : u.enCnt = s.enCnt
  enTot : u.enTot = s.enTot
  encA : u.encA = s.encA
  encB : u.encB = s.encB
  inp : u.wires.inp = i
  packet : u.wires.packet = none
  clr : u.wires.clr = false
  posts : u.wires.posts = ⟨none, none, none, none⟩
  fall : u.wires.fall = (s.irPrev && !i.irIn)
  rise : u.wires.rise = (!s.irPrev && i.irIn)
  mode :
    (i.hostOp = 0b001#3 ∧ u.wires.hold = true ∧ u.icie = true ∧ u.pcie = true ∧ u.ices = false ∧ u.irSt = .idle
      ∧ u.pchSt = .idle ∧ u.pcif = false ∧ u.evt = s.evt)
    ∨ (i.hostOp ≠ 0b001#3 ∧ u.wires.hold = false ∧ u.icie = s.icie ∧ u.pcie = s.pcie ∧ u.ices = s.ices
      ∧ u.irSt = s.irSt ∧ u.pchSt = s.pchSt ∧ u.pcif = s.pcif
      ∧ ((i.hostOp = 0b010#3 ∧ u.evt = 0x00#8) ∨ (i.hostOp ≠ 0b010#3 ∧ u.evt = s.evt)))

/-- Everything phases P1 and P2 can do. -/
theorem hostDone {s t u : State} {i : Inputs} (ht : t = { s with inputs := t.inputs, drawn := t.drawn })
    (h : exec (decodeHost i.hostOp) (beginTick i t) = .next u) :
    HostDone s i u ∧ u.inputs = t.inputs ∧ u.drawn = t.drawn := by
  rw [exec_decodeHost] at h
  simp only [Host.Outcome.next.injEq] at h
  generalize t.inputs = ti at ht ⊢
  generalize t.drawn = td at ht ⊢
  subst ht h
  by_cases h1 : i.hostOp = 0b001#3
  · rw [if_pos h1]
    refine ⟨?_, rfl, rfl⟩
    constructor <;> first | rfl | exact .inl ⟨h1, rfl, rfl, rfl, rfl, rfl, rfl, rfl, rfl⟩
  · rw [if_neg h1]
    by_cases h2 : i.hostOp = 0b010#3
    · rw [if_pos h2]
      refine ⟨?_, rfl, rfl⟩
      constructor <;> first | rfl | exact .inr ⟨h1, rfl, rfl, rfl, rfl, rfl, rfl, rfl, .inl ⟨h2, rfl⟩⟩
    · rw [if_neg h2]
      by_cases h3 : i.hostOp = 0b011#3
      · rw [if_pos h3]
        refine ⟨?_, rfl, rfl⟩
        constructor <;> first | rfl | exact .inr ⟨h1, rfl, rfl, rfl, rfl, rfl, rfl, rfl, .inr ⟨h2, rfl⟩⟩
      · rw [if_neg h3]
        by_cases h4 : i.hostOp = 0b100#3
        · rw [if_pos h4]
          refine ⟨?_, rfl, rfl⟩
          constructor <;> first | rfl | exact .inr ⟨h1, rfl, rfl, rfl, rfl, rfl, rfl, rfl, .inr ⟨h2, rfl⟩⟩
        · rw [if_neg h4]
          refine ⟨?_, rfl, rfl⟩
          constructor <;> first | rfl | exact .inr ⟨h1, rfl, rfl, rfl, rfl, rfl, rfl, rfl, .inr ⟨h2, rfl⟩⟩

/-- `s` with another response, another mailbox value and another host code on the sampled lines. -/
def State.withHostPort (v e : Byte) (op : HostWord) (s : State) : State :=
  { s with
    out := { s.out with hostRsp := v }
    evt := e
    wires := { s.wires with inp := { s.wires.inp with hostOp := op } } }

theorem withHostPort_ite {P : Prop} [Decidable P] (v e : Byte) (op : HostWord) (a b : State) :
    State.withHostPort v e op (if P then a else b)
      = if P then a.withHostPort v e op else b.withHostPort v e op := by
  split <;> rfl

theorem captureOp_withHostPort (v e : Byte) (op : HostWord) (s : State) :
    captureOp (s.withHostPort v e op) = (captureOp s).withHostPort v e op := by
  rcases captureOp_cases s with ⟨h, g⟩ | ⟨h, he, hf, g⟩ | ⟨h, he, hr, g⟩
  · rw [g, captureOp_none (show ¬ CaptureDue (s.withHostPort v e op) from h)]
    rfl
  · rw [g, captureOp_falling (s := s.withHostPort v e op) h.1 h.2.1 he hf]
    rfl
  · rw [g, captureOp_rising (s := s.withHostPort v e op) h.1 h.2.1 he hr]
    rfl

theorem widthOp_withHostPort (v e : Byte) (op : HostWord) (s : State) :
    widthOp (s.withHostPort v e op) = (widthOp s).withHostPort v e op := by
  rw [widthOp_eq, widthOp_eq]
  rfl

theorem irtimeoutOp_withHostPort (v e : Byte) (op : HostWord) (s : State) :
    irtimeoutOp (s.withHostPort v e op) = (irtimeoutOp s).withHostPort v e op := by
  have h : (s.withHostPort v e op).irSt = s.irSt := rfl
  unfold irtimeoutOp
  simp only [withHostPort_ite]
  cases hs : timeoutCause s.irSt <;> simp only [h, hs] <;> rfl

theorem storeBit_withHostPort (b : Bool) (v e : Byte) (op : HostWord) (s : State) :
    storeBit b (s.withHostPort v e op) = (storeBit b s).withHostPort v e op := by
  unfold storeBit
  simp only [withHostPort_ite]
  rfl

theorem irsyncOp_withHostPort (v e : Byte) (op : HostWord) (s : State) :
    irsyncOp (s.withHostPort v e op) = (irsyncOp s).withHostPort v e op := by
  have h : (s.withHostPort v e op).irSt = s.irSt := rfl
  have hc : (s.withHostPort v e op).wires.cap = s.wires.cap := rfl
  have hw : (s.withHostPort v e op).wires.width = s.wires.width := rfl
  unfold irsyncOp
  cases hs : s.irSt <;> cases hcs : s.wires.cap <;> cases hws : s.wires.width <;>
    simp only [h, hc, hw, hs, hcs, hws, withHostPort_ite, leadOp, notLeadOp] <;> rfl

theorem irbitOp_withHostPort (v e : Byte) (op : HostWord) (s : State) :
    irbitOp (s.withHostPort v e op) = (irbitOp s).withHostPort v e op := by
  have h : (s.withHostPort v e op).irSt = s.irSt := rfl
  have hc : (s.withHostPort v e op).wires.cap = s.wires.cap := rfl
  have hw : (s.withHostPort v e op).wires.width = s.wires.width := rfl
  unfold irbitOp
  cases hs : s.irSt <;> cases hcs : s.wires.cap <;> cases hws : s.wires.width <;>
    simp only [h, hc, hw, hs, hcs, hws, withHostPort_ite, zeroOp, oneOp, badOp, ← storeBit_withHostPort] <;> rfl

theorem iraddrOp_withHostPort (v e : Byte) (op : HostWord) (s : State) :
    iraddrOp (s.withHostPort v e op) = (iraddrOp s).withHostPort v e op := by
  have h : (s.withHostPort v e op).wires.packet = s.wires.packet := rfl
  unfold iraddrOp
  cases hs : s.wires.packet
  · simp only [h, hs]
  · simp only [h, hs, withHostPort_ite]
    rfl

theorem ircmdOp_withHostPort (v e : Byte) (op : HostWord) (s : State) :
    ircmdOp (s.withHostPort v e op) = (ircmdOp s).withHostPort v e op := by
  have h : (s.withHostPort v e op).wires.packet = s.wires.packet := rfl
  unfold ircmdOp
  cases hs : s.wires.packet
  · simp only [h, hs]
  · simp only [h, hs, acceptCommand_eq]
    rfl

/-- The IR decoder's step neither reads nor writes the host port's values. -/
theorem irStep_withHostPort (v e : Byte) (op : HostWord) (s : State) :
    irStep (s.withHostPort v e op) = (irStep s).withHostPort v e op := by
  by_cases h : CaptureDue s
  · rw [irStep_captured h, irStep_captured (s := s.withHostPort v e op) h]
    have hs : (s.withHostPort v e op).irSt = s.irSt := rfl
    rw [hs]
    simp only [captureOp_withHostPort, widthOp_withHostPort]
    cases s.irSt <;>
      simp only [irsyncOp_withHostPort, irbitOp_withHostPort, iraddrOp_withHostPort, ircmdOp_withHostPort, irarmOp,
        irrelOp, withHostPort_ite] <;> rfl
  · rw [irStep_quiet h, irStep_quiet (s := s.withHostPort v e op) h, ← irtimeoutOp_withHostPort]
    rfl

theorem ensampleOp_withHostPort (v e : Byte) (op : HostWord) (s : State) :
    ensampleOp (s.withHostPort v e op) = (ensampleOp s).withHostPort v e op := by
  rw [ensampleOp_eq, ensampleOp_eq]
  rfl

theorem enterSettle_withHostPort (v e : Byte) (op : HostWord) (s : State) :
    enterSettle (s.withHostPort v e op) = (enterSettle s).withHostPort v e op := by
  unfold enterSettle
  simp only [withHostPort_ite, ← ensampleOp_withHostPort]
  rfl

/-- The sequencer's step neither reads nor writes the host port's values. -/
theorem pchStep_withHostPort (v e : Byte) (op : HostWord) (s : State) :
    pchStep (s.withHostPort v e op) = (pchStep s).withHostPort v e op := by
  unfold pchStep
  have h : (s.withHostPort v e op).pchSt = s.pchSt := rfl
  rw [h]
  cases s.pchSt
  · simp only [pcstartOp, withHostPort_ite, ← enterSettle_withHostPort, enterDebounce]
    rfl
  · simp only [dbqualOp, withHostPort_ite, ← enterSettle_withHostPort, dbabortOp]
    rfl
  · simp only [dbrelOp, withHostPort_ite, ← enterSettle_withHostPort, dbabortOp]
    rfl
  · simp only [ensettleOp, withHostPort_ite, ← ensampleOp_withHostPort, enabortOp]
    rfl

end Sys2Proof.Machine
end

