-- ==== Sys2Proof/Laws/PerInstr.lean ====
section
/-! SUPPORT. Statements for all instructions, one lemma per constructor: the word of a well-formed instruction decodes
to that instruction. -/

namespace Sys2Proof.Laws.RoundTrip

open Sys2Proof

/-- Whatever word a well-formed instruction has decodes to it. -/
def Statement (i : Instr) : Prop := i.wf = true → ∀ e, encode i = some e → decode e = i

/-- An instruction without a word. -/
theorem of_none {i : Instr} (h : encode i = none) : Statement i := by
  intro _ e he
  rw [h] at he
  cases he

/-- An instruction with one word, which decodes to it. -/
theorem of_some {i : Instr} {e : Encoded} (h : encode i = some e) (hd : decode e = i) : Statement i := by
  intro _ e' he
  rw [h] at he
  cases he
  exact hd

/-- The fields of an assembled packet. -/
theorem packetOf_fields (addr : BitVec 5) (cmd : BitVec 7) :
    packetAddr (packetOf addr cmd) = addr ∧ packetCmd (packetOf addr cmd) = cmd :=
  ⟨BitVec.extractLsb'_append_eq_left, BitVec.extractLsb'_append_eq_right⟩

/-- Two packets are equal when their fields are. -/
theorem packetOf_injective {addr addr' : BitVec 5} {cmd cmd' : BitVec 7} (h : packetOf addr cmd = packetOf addr' cmd') :
    addr = addr' ∧ cmd = cmd' := by
  have h1 := congrArg packetAddr h
  have h2 := congrArg packetCmd h
  rw [(packetOf_fields addr cmd).1, (packetOf_fields addr' cmd').1] at h1
  rw [(packetOf_fields addr cmd).2, (packetOf_fields addr' cmd').2] at h2
  exact ⟨h1, h2⟩

/-- The word of a well-formed generic packet is none of the eight listed ones. -/
theorem unlisted {addr : BitVec 5} {cmd : BitVec 7} (h : (Instr.pkt addr cmd).wf = true) (cmd' : BitVec 7)
    (hm : (1#5, cmd') ∈ namedPackets) : packetOf addr cmd ≠ packetOf 1#5 cmd' := by
  intro he
  obtain ⟨rfl, rfl⟩ := packetOf_injective he
  simp only [Instr.wf, Bool.not_eq_true'] at h
  rw [List.contains_iff_mem.2 hm] at h
  cases h

theorem nop : Statement .nop := of_some rfl rfl

theorem init : Statement .init := of_some rfl rfl

theorem pop : Statement .pop := of_some rfl rfl

theorem peek : Statement .peek := of_some rfl rfl

theorem isany : Statement .isany := of_some rfl rfl

theorem reserved5 : Statement .reserved5 := of_some rfl rfl

theorem reserved6 : Statement .reserved6 := of_some rfl rfl

theorem reserved7 : Statement .reserved7 := of_some rfl rfl

theorem qSame00 (k : Knob) : Statement (.qSame00 k) := of_some rfl rfl

theorem qFwd01 (k : Knob) : Statement (.qFwd01 k) := of_some rfl rfl

theorem qSkip02 (k : Knob) : Statement (.qSkip02 k) := of_some rfl rfl

theorem qRev03 (k : Knob) : Statement (.qRev03 k) := of_some rfl rfl

theorem qRev10 (k : Knob) : Statement (.qRev10 k) := of_some rfl rfl

theorem qSame11 (k : Knob) : Statement (.qSame11 k) := of_some rfl rfl

theorem qFwd12 (k : Knob) : Statement (.qFwd12 k) := of_some rfl rfl

theorem qSkip13 (k : Knob) : Statement (.qSkip13 k) := of_some rfl rfl

theorem qSkip20 (k : Knob) : Statement (.qSkip20 k) := of_some rfl rfl

theorem qRev21 (k : Knob) : Statement (.qRev21 k) := of_some rfl rfl

theorem qSame22 (k : Knob) : Statement (.qSame22 k) := of_some rfl rfl

theorem qFwd23 (k : Knob) : Statement (.qFwd23 k) := of_some rfl rfl

theorem qFwd30 (k : Knob) : Statement (.qFwd30 k) := of_some rfl rfl

theorem qSkip31 (k : Knob) : Statement (.qSkip31 k) := of_some rfl rfl

theorem qRev32 (k : Knob) : Statement (.qRev32 k) := of_some rfl rfl

theorem qSame33 (k : Knob) : Statement (.qSame33 k) := of_some rfl rfl

theorem pkt (addr : BitVec 5) (cmd : BitVec 7) : Statement (.pkt addr cmd) := by
  intro hw e he
  cases he
  have h := unlisted hw
  have h0 : packetOf addr cmd ≠ 146#12 := h 0x12#7 (by decide)
  have h1 : packetOf addr cmd ≠ 147#12 := h 0x13#7 (by decide)
  have h2 : packetOf addr cmd ≠ 229#12 := h 0x65#7 (by decide)
  have h3 : packetOf addr cmd ≠ 227#12 := h 0x63#7 (by decide)
  have h4 : packetOf addr cmd ≠ 244#12 := h 0x74#7 (by decide)
  have h5 : packetOf addr cmd ≠ 245#12 := h 0x75#7 (by decide)
  have h6 : packetOf addr cmd ≠ 180#12 := h 0x34#7 (by decide)
  have h7 : packetOf addr cmd ≠ 179#12 := h 0x33#7 (by decide)
  simp only [decode, decodePacket, h0, h1, h2, h3, h4, h5, h6, h7, if_false]
  rw [(packetOf_fields addr cmd).1, (packetOf_fields addr cmd).2]

theorem pktVolumeUp : Statement .pktVolumeUp := of_some rfl rfl

theorem pktVolumeDown : Statement .pktVolumeDown := of_some rfl rfl

theorem pktEnter : Statement .pktEnter := of_some rfl rfl

theorem pktBack : Statement .pktBack := of_some rfl rfl

theorem pktDirUp : Statement .pktDirUp := of_some rfl rfl

theorem pktDirDown : Statement .pktDirDown := of_some rfl rfl

theorem pktDirLeft : Statement .pktDirLeft := of_some rfl rfl

theorem pktDirRight : Statement .pktDirRight := of_some rfl rfl

theorem symLead : Statement .symLead := of_none rfl

theorem symNotLead : Statement .symNotLead := of_none rfl

theorem symZero : Statement .symZero := of_none rfl

theorem symOne : Statement .symOne := of_none rfl

theorem symBad : Statement .symBad := of_none rfl

theorem count : Statement .count := of_none rfl

theorem edge : Statement .edge := of_none rfl

theorem capture : Statement .capture := of_none rfl

theorem width : Statement .width := of_none rfl

theorem pcdetect : Statement .pcdetect := of_none rfl

theorem pcstart : Statement .pcstart := of_none rfl

theorem dbstart : Statement .dbstart := of_none rfl

theorem dbqual : Statement .dbqual := of_none rfl

theorem dbrel : Statement .dbrel := of_none rfl

theorem dbabort : Statement .dbabort := of_none rfl

theorem ensettle : Statement .ensettle := of_none rfl

theorem ensample : Statement .ensample := of_none rfl

theorem qstep (k : Knob) : Statement (.qstep k) := of_none rfl

theorem enabort : Statement .enabort := of_none rfl

theorem irarm : Statement .irarm := of_none rfl

theorem irsync : Statement .irsync := of_none rfl

theorem irbit : Statement .irbit := of_none rfl

theorem iraddr : Statement .iraddr := of_none rfl

theorem ircmd : Statement .ircmd := of_none rfl

theorem irrel : Statement .irrel := of_none rfl

theorem irtimeout : Statement .irtimeout := of_none rfl

theorem post : Statement .post := of_none rfl

end Sys2Proof.Laws.RoundTrip
end

