-- ==== Sys2Proof/Tests/Slice0.lean ====
section
/-! SUPPORT. Tests. The expected results are the spec's: encodings written out from 30_encoding.md, the vectors of
95_test_vectors.md (named V<n>) at the reference parameters, the constraints of 00_scope.md rule R10. The last part
shows, for every obligation with hypotheses, a state that meets them; those use windows of a few ticks. -/

namespace Sys2Proof.Tests

open Sys2Proof Sys2Proof.Machine

/-- What an outcome's next state holds. -/
def after {α : Type} (o : Host.Outcome State Fault Refusal) (f : State → α) : Option α :=
  match o with
  | .next t => some (f t)
  | .fault _ => none
  | .refused _ => none

/-- The outcome is a next state. -/
def completes (o : Host.Outcome State Fault Refusal) : Bool :=
  match o with
  | .next _ => true
  | .fault _ => false
  | .refused _ => false

/-- Idle lines with the buttons, the encoder contacts, the IR line and the host code given. -/
def lines (btnN : LineMask) (enc : BitVec 4) (irIn : Bool) (op : HostWord) : Inputs := ⟨false, btnN, enc, irIn, op⟩

/-- The reset state after its enables are set, at the reference parameters. -/
def ready : State := { State.reset with icie := true, pcie := true }

/-- The wires of a tick that samples the given lines. -/
def wiresOf (i : Inputs) : Wires := { Wires.idle with inp := i }

/-! ### Well-formedness and configuration -/

theorem test_wf_refuses_volumeUp_as_generic : (Instr.pkt 1#5 0x12#7).wf = false := by decide

theorem test_wf_refuses_volumeDown_as_generic : (Instr.pkt 1#5 0x13#7).wf = false := by decide

theorem test_wf_refuses_enter_as_generic : (Instr.pkt 1#5 0x65#7).wf = false := by decide

theorem test_wf_refuses_back_as_generic : (Instr.pkt 1#5 0x63#7).wf = false := by decide

theorem test_wf_refuses_dirUp_as_generic : (Instr.pkt 1#5 0x74#7).wf = false := by decide

theorem test_wf_refuses_dirDown_as_generic : (Instr.pkt 1#5 0x75#7).wf = false := by decide

theorem test_wf_refuses_dirLeft_as_generic : (Instr.pkt 1#5 0x34#7).wf = false := by decide

theorem test_wf_refuses_dirRight_as_generic : (Instr.pkt 1#5 0x33#7).wf = false := by decide

theorem test_wf_generic : (Instr.pkt 2#5 0x12#7).wf = true ∧ (Instr.pkt 1#5 0x00#7).wf = true := by decide

theorem test_reference_is_valid : Config.reference.valid = true := by decide

theorem test_refuses_tPress : { Config.reference with tPress := 0 }.valid = false := by decide

theorem test_refuses_tDebounce : { Config.reference with tDebounce := 0 }.valid = false := by decide

theorem test_refuses_tSettle : { Config.reference with tSettle := 0 }.valid = false := by decide

theorem test_refuses_tTimeout_zero : { Config.reference with tTimeout := 0 }.valid = false := by decide

theorem test_refuses_tTimeout_wide : { Config.reference with tTimeout := 65536 }.valid = false := by decide

theorem test_refuses_lead_over_timeout : { Config.reference with tLeadMax := 40000 }.valid = false := by decide

theorem test_refuses_zero_range : { Config.reference with tZeroMin := 750 }.valid = false := by decide

theorem test_refuses_zero_over_one : { Config.reference with tZeroMax := 900 }.valid = false := by decide

theorem test_refuses_one_range : { Config.reference with tOneMin := 1500 }.valid = false := by decide

theorem test_refuses_one_over_lead : { Config.reference with tOneMax := 2100 }.valid = false := by decide

theorem test_refuses_lead_range : { Config.reference with tLeadMin := 2701 }.valid = false := by decide

theorem test_refuses_press_over_bound : { Config.reference with tDbMax := some 9999 }.valid = false := by decide

theorem test_refuses_settle_over_bound : { Config.reference with tEnMax := some 1999 }.valid = false := by decide

theorem test_refuses_cmdMap_fixed_point : { Config.reference with cmdMap := [] }.valid = false := by decide

theorem test_refuses_cmdMap_local_button : { Config.reference with cmdMap := [(0x12#7, .volumeUp), (0x01#7, .selectLeftUp)] }.valid = false := by decide

theorem test_refuses_nBits : { Config.reference with nBits := 11 }.valid = false := by decide

theorem test_refuses_addrBits : { Config.reference with addrBits := 4 }.valid = false := by decide

theorem test_refuses_cmdBits : { Config.reference with cmdBits := 8 }.valid = false := by decide

theorem test_refuses_nBtn : { Config.reference with nBtn := 5 }.valid = false := by decide

theorem test_refuses_no_blips : { Config.reference with blipsPerDetent := 0 }.valid = false := by decide

theorem test_refuses_five_blips : { Config.reference with blipsPerDetent := 5 }.valid = false := by decide

/-- The second row for a command is not its value, so it may hold anything. -/
theorem test_accepts_shadowed_row :
    { Config.reference with cmdMap := [(0x12#7, .volumeUp), (0x12#7, .selectLeftUp)] }.valid = true := by decide

theorem test_accepts_two_blips : { Config.reference with blipsPerDetent := 2 }.valid = true := by decide

/-- Rule R164 with another parameter: the second forward blip emits. -/
theorem test_two_blips_to_a_detent :
    after (exec (.qFwd12 .A) { ready with cfg := { Config.reference with blipsPerDetent := 2 }, encA := ⟨1#2, 1, true⟩ })
      (fun t => (t.encA.blips, t.wires.posts.A)) = some (0, some 0x04#8) := by decide

theorem test_step_refuses_bad_configuration :
    step { State.reset with cfg := { Config.reference with tPress := 0 } } = .refused .badConfiguration := rfl

/-! ### Decoding, from 30_encoding.md rules R81, R90, R83, R85 -/

theorem test_decode_nop : decode (.host 0b000#3) = .nop := by decide

theorem test_decode_init : decode (.host 0b001#3) = .init := by decide

theorem test_decode_pop : decode (.host 0b010#3) = .pop := by decide

theorem test_decode_peek : decode (.host 0b011#3) = .peek := by decide

theorem test_decode_isany : decode (.host 0b100#3) = .isany := by decide

theorem test_decode_reserved5 : decode (.host 0b101#3) = .reserved5 := by decide

theorem test_decode_reserved6 : decode (.host 0b110#3) = .reserved6 := by decide

theorem test_decode_reserved7 : decode (.host 0b111#3) = .reserved7 := by decide

theorem test_decode_qSame00 : decode (.quad .A 0b0000#4) = .qSame00 .A := by decide

theorem test_decode_qFwd01 : decode (.quad .B 0b0001#4) = .qFwd01 .B := by decide

theorem test_decode_qSkip02 : decode (.quad .A 0b0010#4) = .qSkip02 .A := by decide

theorem test_decode_qRev03 : decode (.quad .B 0b0011#4) = .qRev03 .B := by decide

theorem test_decode_qRev10 : decode (.quad .B 0b0100#4) = .qRev10 .B := by decide

theorem test_decode_qSame11 : decode (.quad .A 0b0101#4) = .qSame11 .A := by decide

theorem test_decode_qFwd12 : decode (.quad .B 0b0110#4) = .qFwd12 .B := by decide

theorem test_decode_qSkip13 : decode (.quad .A 0b0111#4) = .qSkip13 .A := by decide

theorem test_decode_qSkip20 : decode (.quad .A 0b1000#4) = .qSkip20 .A := by decide

theorem test_decode_qRev21 : decode (.quad .B 0b1001#4) = .qRev21 .B := by decide

theorem test_decode_qSame22 : decode (.quad .A 0b1010#4) = .qSame22 .A := by decide

theorem test_decode_qFwd23 : decode (.quad .B 0b1011#4) = .qFwd23 .B := by decide

theorem test_decode_qFwd30 : decode (.quad .B 0b1100#4) = .qFwd30 .B := by decide

theorem test_decode_qSkip31 : decode (.quad .A 0b1101#4) = .qSkip31 .A := by decide

theorem test_decode_qRev32 : decode (.quad .B 0b1110#4) = .qRev32 .B := by decide

theorem test_decode_qSame33 : decode (.quad .A 0b1111#4) = .qSame33 .A := by decide

theorem test_decode_pktVolumeUp : decode (.packet 0b000010010010#12) = .pktVolumeUp := by decide

theorem test_decode_pktVolumeDown : decode (.packet 0b000010010011#12) = .pktVolumeDown := by decide

theorem test_decode_pktEnter : decode (.packet 0b000011100101#12) = .pktEnter := by decide

theorem test_decode_pktBack : decode (.packet 0b000011100011#12) = .pktBack := by decide

theorem test_decode_pktDirUp : decode (.packet 0b000011110100#12) = .pktDirUp := by decide

theorem test_decode_pktDirDown : decode (.packet 0b000011110101#12) = .pktDirDown := by decide

theorem test_decode_pktDirLeft : decode (.packet 0b000010110100#12) = .pktDirLeft := by decide

theorem test_decode_pktDirRight : decode (.packet 0b000010110011#12) = .pktDirRight := by decide

theorem test_decode_pkt : decode (.packet 0b000100010010#12) = .pkt 0b00010#5 0b0010010#7 := by decide

theorem test_decode_symLead :
    decodeSyncPulse Config.reference 2100 = .symLead ∧ decodeSyncPulse Config.reference 2700 = .symLead := by decide

theorem test_decode_symNotLead :
    decodeSyncPulse Config.reference 2099 = .symNotLead ∧ decodeSyncPulse Config.reference 2701 = .symNotLead := by
  decide

theorem test_decode_symZero :
    decodeDataPulse Config.reference 450 = .symZero ∧ decodeDataPulse Config.reference 749 = .symZero := by decide

theorem test_decode_symOne :
    decodeDataPulse Config.reference 900 = .symOne ∧ decodeDataPulse Config.reference 1499 = .symOne := by decide

theorem test_decode_symBad : decodeDataPulse Config.reference 449 = .symBad
    ∧ decodeDataPulse Config.reference 750 = .symBad ∧ decodeDataPulse Config.reference 899 = .symBad
    ∧ decodeDataPulse Config.reference 1500 = .symBad ∧ decodeDataPulse Config.reference 2400 = .symBad := by decide

/-- Rows of formats S and U have no word. -/
theorem test_no_word : ∀ i ∈ [Instr.symLead, .symNotLead, .symZero, .symOne, .symBad, .count, .edge, .capture, .width,
    .pcdetect, .pcstart, .dbstart, .dbqual, .dbrel, .dbabort, .ensettle, .ensample, .qstep .A, .enabort, .irarm,
    .irsync, .irbit, .iraddr, .ircmd, .irrel, .irtimeout, .post], encode i = none := by decide

theorem test_table_words : decodeTableWord 8 2 = some .pop ∧ decodeTableWord 3 2 = some .pop
    ∧ decodeTableWord 4 2 = some (.qSkip02 .A) ∧ decodeTableWord 8 11 = some (.qFwd23 .A)
    ∧ decodeTableWord 16 0x092 = some .pktVolumeUp ∧ decodeTableWord 12 0x092 = some .pktVolumeUp := by decide

theorem test_stray_bits_refused : decodeBytes .host [0x08#8] = .error .strayBits
    ∧ decodeBytes (.quad .A) [0x10#8] = .error .strayBits ∧ decodeBytes .packet [0x00#8, 0x10#8] = .error .strayBits
    ∧ decodeBytes .packet [0x92#8] = .error .wrongLength ∧ decodeTableWord 8 16 = none ∧ decodeTableWord 24 0 = none := by
  decide

/-! ### A table word where the next step runs it -/

theorem test_fetch_peek : after (step ({ State.reset with evt := 0x04#8 }.withFetchWord 8 3)) (·.out.hostRsp)
    = some 0x04#8 := by decide

theorem test_fetch_qFwd30 : after (step (State.reset.withFetchWord 8 12)) (fun t => (t.encA.quadrant, t.pchSt))
    = some (0#2, .idle) := by decide

theorem test_fetch_qRev21 : after (step (State.reset.withFetchWord 4 9)) (fun t => (t.encA.quadrant, t.encA.blips))
    = some (1#2, -1) := by decide

theorem test_fetch_pktVolumeUp : after (step (State.reset.withFetchWord 16 0x092)) (fun t => (t.evt, t.irSt))
    = some (0x04#8, .rel) := by decide

theorem test_fetch_pkt_foreign : after (step (State.reset.withFetchWord 16 0x912)) (fun t => (t.evt, t.irSt, t.pkt))
    = some (0x00#8, .syncGap, 0x912#12) := by decide

/-! ### Capture unit (V10 to V18) -/

theorem test_v10_count : after (exec .count { ready with tcnt := 0x1234 }) (·.tcnt) = some 0x1235 := by decide

theorem test_v11_count_wraps : after (exec .count { ready with tcnt := 0xFFFF }) (·.tcnt) = some 0 := by decide

theorem test_v12_disabled :
    after (step { State.reset with tcnt := 7, inputs := [lines 0x3F#6 0#4 false 0#3] })
      (fun t => (t.tcnt, t.irPrev, t.icr, t.irSt)) = some (8, false, 0, .idle) := by decide

theorem test_v18_edges :
    after (exec .edge { ready with wires := wiresOf (lines 0x3F#6 0#4 false 0#3) })
        (fun t => (t.wires.fall, t.wires.rise, t.irPrev)) = some (true, false, false)
      ∧ after (exec .edge { ready with irPrev := false, wires := wiresOf (lines 0x3F#6 0#4 true 0#3) })
        (fun t => (t.wires.fall, t.wires.rise, t.irPrev)) = some (false, true, true) := by decide

theorem test_v13_falling_capture :
    after (step { ready with tcnt := 1000, inputs := [lines 0x3F#6 0#4 false 0#3] })
      (fun t => ((t.icr, t.capStart, t.ices, t.irCnt), t.irSt, t.irPrev, t.tcnt))
    = some ((1000, 1000, true, 0), .syncLow, false, 1001) := by decide

theorem test_v14_rising_capture :
    after (step { ready with ices := true, irPrev := false, capStart := 1000, tcnt := 3400, irSt := .syncLow,
                             inputs := [lines 0x3F#6 0#4 true 0#3] })
      (fun t => (t.icr, t.ices, t.irSt, t.bitIdx, t.pkt, t.capStart)) = some (3400, false, .bitGap, 0#4, 0#12, 1000) := by
  decide

theorem test_v15_width_across_the_wrap :
    after (exec .width { ready with capStart := 65500, tcnt := 2364, wires := { Wires.idle with cap := some .rising } })
      (·.wires.width) = some (some 2400) := by decide

theorem test_v16_unselected_edge :
    after (exec .capture { ready with irPrev := true, wires := { Wires.idle with rise := true } })
      (fun t => (t.icr, t.ices, t.wires.cap)) = some (0, false, none) := by decide

theorem test_v17_no_edge :
    after (step { ready with ices := true, irPrev := false, irSt := .bitLow, irCnt := 5,
                             inputs := [lines 0x3F#6 0#4 false 0#3] })
      (fun t => (t.irCnt, t.irSt, t.ices)) = some (6, .bitLow, true) := by decide

/-! ### Pin-change unit, sequencer, Debounce Engine (V20 to V33) -/

theorem test_v20_detect :
    after (step { ready with inputs := [lines 0x3E#6 0#4 true 0#3] }) (fun t => (t.pcif, t.pcPrev, t.pchSt))
    = some (true, 0x03E#10, .idle) := by decide

theorem test_v21_detect_disabled :
    after (exec .pcdetect { State.reset with wires := wiresOf (lines 0x3E#6 0#4 true 0#3) })
      (fun t => (t.pcif, t.pcPrev)) = some (false, 0x03E#10) := by decide

theorem test_v22_start_button :
    after (step { ready with pcif := true, pcPrev := 0x03E#10, inputs := [lines 0x3E#6 0#4 true 0#3] })
      (fun t => (t.pchSt, t.dbCand, t.dbCnt, t.dbTot, t.pcif)) = some (.dbQual, 0x01#6, 1, 0, false) := by decide

theorem test_v23_start_no_button :
    after (step { ready with pcif := true, pcPrev := 0x07F#10, inputs := [lines 0x3F#6 1#4 true 0#3] })
      (fun t => (t.pchSt, t.enRaw, t.enCnt, t.enTot, t.pcif)) = some (.enSettle, 1#4, 1, 0, false) := by decide

theorem test_v24_start_and_change :
    after (step { ready with pcif := true, pcPrev := 0x03E#10, inputs := [lines 0x3F#6 0#4 true 0#3] })
      (fun t => (t.pchSt, t.pcif)) = some (.enSettle, true) := by decide

theorem test_dbstart_takes_the_mask :
    after (exec .dbstart { ready with dbTot := 7, wires := wiresOf (lines 0x3C#6 0#4 true 0#3) })
      (fun t => (t.pchSt, t.dbCand, t.dbCnt, t.dbTot)) = some (.dbQual, 0x03#6, 1, 0) := by decide

theorem test_v26_accept :
    after (exec .dbqual { ready with pchSt := .dbQual, dbCand := 1#6, dbCnt := 9999, dbTot := 9998,
                                     wires := wiresOf (lines 0x3E#6 0#4 true 0#3) })
      (fun t => (t.pchSt, t.dbCnt, t.dbTot)) = some (.dbRel, 0, 9999) := by decide

theorem test_v27_reject :
    after (step { ready with pchSt := .dbQual, dbCand := 1#6, dbCnt := 9999, dbTot := 9998, pcPrev := 0x03E#10,
                             inputs := [lines 0x3F#6 0#4 true 0#3] })
      (fun t => ((t.pchSt, t.enCnt, t.dbTot), t.evt, t.pcif, t.out.rejects))
    = some ((.enSettle, 1, 9999), 0x00#8, true, [.shortPress]) := by decide

theorem test_v30_release_restart :
    after (exec .dbrel { ready with pchSt := .dbRel, dbCand := 1#6, dbCnt := 9998, dbTot := 20,
                                    wires := wiresOf (lines 0x3D#6 0#4 true 0#3) })
      (fun t => (t.dbCnt, t.dbCand, t.pchSt, t.dbTot)) = some (0, 1#6, .dbRel, 21) := by decide

theorem test_v31_confirm :
    after (step { ready with pchSt := .dbRel, dbCand := 1#6, dbCnt := 9999,
                             inputs := [lines 0x3F#6 0#4 true 0#3] })
      (fun t => (t.evt, t.pchSt, t.dbCnt, t.enCnt, t.enTot, t.pcif))
    = some (0x01#8, .enSettle, 10000, 1, 0, false) := by decide

theorem test_v32_abort :
    after (step { ready with cfg := { Config.reference with tDbMax := some 50000 }, pchSt := .dbRel, dbCand := 1#6,
                             dbTot := 49999, inputs := [lines 0x3E#6 0#4 true 0#3], pcPrev := 0x03E#10 })
      (fun t => (t.pchSt, t.evt, t.pcif, t.dbTot, t.out.rejects))
    = some (.enSettle, 0x00#8, false, 50000, [.debounceBound]) := by decide

theorem test_v33_confirm_beats_abort :
    after (step { ready with cfg := { Config.reference with tDbMax := some 50000 }, pchSt := .dbRel, dbCand := 1#6,
                             dbCnt := 9999, dbTot := 49999, inputs := [lines 0x3F#6 0#4 true 0#3] })
      (·.evt) = some 0x01#8 := by decide

theorem test_dbabort_posts_nothing :
    after (exec .dbabort { ready with pchSt := .dbRel, dbCand := 1#6 })
      (fun t => (t.pchSt, t.wires.clr, t.wires.posts.db, t.out.rejects)) = some (.enSettle, true, none, [.debounceBound]) := by
  decide

/-! ### Quadrature Decoder (V50, V51) -/

theorem test_v50_gray2bin :
    gray2bin 0b00#2 = 0#2 ∧ gray2bin 0b01#2 = 1#2 ∧ gray2bin 0b11#2 = 2#2 ∧ gray2bin 0b10#2 = 3#2 := by decide

/-- A row of V51: knob A's word executed at the stored quadrant and count gives the count and the post. -/
def row (i : Instr) (old : Quadrant) (b : Int) : Option (Int × Option Byte) :=
  after (exec i { ready with encA := ⟨old, b, true⟩ }) (fun t => (t.encA.blips, t.wires.posts.A))

theorem test_v51_from_0 : row (.qSame00 .A) 0#2 0 = some (0, none) ∧ row (.qFwd01 .A) 0#2 0 = some (1, none)
    ∧ row (.qSkip02 .A) 0#2 0 = some (0, none) ∧ row (.qRev03 .A) 0#2 0 = some (-1, none) := by decide

theorem test_v51_from_1 : row (.qRev10 .A) 1#2 (-3) = some (0, some 0x08#8) ∧ row (.qRev10 .A) 1#2 3 = some (0, none)
    ∧ row (.qSame11 .A) 1#2 (-3) = some (-3, none) ∧ row (.qFwd12 .A) 1#2 1 = some (2, none)
    ∧ row (.qFwd12 .A) 1#2 3 = some (0, some 0x04#8) ∧ row (.qSkip13 .A) 1#2 3 = some (3, none) := by decide

theorem test_v51_from_2 : row (.qSkip20 .A) 2#2 3 = some (0, none) ∧ row (.qRev21 .A) 2#2 (-3) = some (0, some 0x08#8)
    ∧ row (.qRev21 .A) 2#2 (-1) = some (-2, none) ∧ row (.qSame22 .A) 2#2 3 = some (3, none)
    ∧ row (.qFwd23 .A) 2#2 3 = some (0, some 0x04#8) := by decide

theorem test_v51_from_3 : row (.qFwd30 .A) 3#2 3 = some (0, some 0x04#8) ∧ row (.qFwd30 .A) 3#2 (-3) = some (0, none)
    ∧ row (.qSkip31 .A) 3#2 (-3) = some (-3, none) ∧ row (.qRev32 .A) 3#2 (-3) = some (0, some 0x08#8)
    ∧ row (.qSame33 .A) 3#2 1 = some (1, none) := by decide

theorem test_r162_first_sample :
    after (exec .ensample { ready with wires := wiresOf (lines 0x3F#6 1#4 true 0#3) })
      (fun t => (t.encA, t.encB, t.wires.posts.A)) = some (⟨1#2, 0, true⟩, ⟨0#2, 0, true⟩, none) := by decide

theorem test_v55_both_knobs :
    after (exec .ensample { ready with encA := ⟨3#2, 3, true⟩, encB := ⟨1#2, -3, true⟩ })
      (fun t => (t.wires.posts.A, t.wires.posts.B, t.pchSt)) = some (some 0x04#8, some 0x10#8, .idle) := by decide

theorem test_qstep_B :
    after (exec (.qstep .B) { ready with encB := ⟨3#2, 3, true⟩ }) (fun t => (t.encB, t.wires.posts.B))
    = some (⟨0#2, 0, true⟩, some 0x20#8) := by decide

theorem test_ensettle_restart :
    after (exec .ensettle { ready with pchSt := .enSettle, enCnt := 1999, enTot := 3000,
                                       wires := wiresOf (lines 0x3F#6 8#4 true 0#3) })
      (fun t => (t.enCnt, t.enRaw, t.enTot, t.pchSt)) = some (1, 8#4, 3001, .enSettle) := by decide

theorem test_enabort_samples_nothing :
    after (exec .enabort { ready with pchSt := .enSettle }) (fun t => (t.pchSt, t.encA.initialized)) = some (.idle, false) := by
  decide

/-! ### IR Protocol Decoder -/

theorem test_r182_lead : after (exec .symLead { ready with irSt := .syncLow, bitIdx := 5#4, pkt := 0x012#12 })
    (fun t => (t.irSt, t.bitIdx, t.pkt)) = some (.bitGap, 0#4, 0#12) := by decide

theorem test_r182_not_lead : after (exec .symNotLead { ready with irSt := .syncLow, bitIdx := 5#4 })
    (fun t => (t.irSt, t.bitIdx)) = some (.syncGap, 5#4) := by decide

theorem test_v5a_zero_and_one :
    after (exec .symOne { ready with irSt := .bitLow, bitIdx := 4#4, pkt := 0x002#12 })
        (fun t => (t.irSt, t.bitIdx, t.pkt)) = some (.bitGap, 5#4, 0x012#12)
      ∧ after (exec .symZero { ready with irSt := .bitLow, bitIdx := 2#4, pkt := 0x002#12 })
        (fun t => (t.irSt, t.bitIdx, t.pkt)) = some (.bitGap, 3#4, 0x002#12) := by decide

theorem test_v6_bad : after (exec .symBad { ready with irSt := .bitLow, bitIdx := 3#4, pkt := 0x002#12 })
    (fun t => (t.irSt, t.bitIdx, t.pkt, t.out.rejects)) = some (.syncGap, 3#4, 0x002#12, [.badWidth]) := by decide

/-- A decoder in the twelfth data pulse of a packet whose first eleven bits are `low`, with a 600-tick pulse ended. -/
def lastZero (low : Packet) : State :=
  { ready with irSt := .bitLow, ices := true, irPrev := false, bitIdx := 11#4, pkt := low, capStart := 19000,
               tcnt := 19600, inputs := [lines 0x3F#6 0#4 true 0#3] }

theorem test_v5a_posts : after (step (lastZero 0x092#12)) (fun t => (t.irSt, t.evt, t.bitIdx, t.irCnt))
    = some (.rel, 0x04#8, 11#4, 0) := by decide

theorem test_v5b_foreign : after (step (lastZero 0x112#12)) (fun t => (t.irSt, t.evt, t.out.rejects))
    = some (.syncGap, 0x00#8, [.wrongAddress]) := by decide

theorem test_v73_unrecognised : after (step { lastZero 0x080#12 with evt := 0x02#8 }) (fun t => (t.irSt, t.evt))
    = some (.rel, 0x02#8) := by decide

theorem test_v76_codes :
    [Instr.pktVolumeUp, .pktVolumeDown, .pktEnter, .pktBack, .pktDirUp, .pktDirDown, .pktDirLeft, .pktDirRight].map
      (fun i => after (exec i { ready with irSt := .bitLow }) (·.wires.posts.ir))
    = [0x04#8, 0x08#8, 0x01#8, 0x02#8, 0x40#8, 0x41#8, 0x42#8, 0x43#8].map (fun c => some (some c)) := by decide

theorem test_pkt_foreign : after (exec (.pkt 2#5 0x12#7) { ready with irSt := .bitLow })
    (fun t => (t.irSt, t.wires.posts.ir)) = some (.syncGap, none) := by decide

theorem test_r183_next_pulse :
    after (exec .irsync { ready with irSt := .syncGap, irCnt := 9, wires := { Wires.idle with cap := some .falling } })
      (fun t => (t.irSt, t.irCnt)) = some (.syncLow, 0) := by decide

theorem test_v71_dead_zone :
    after (exec .irbit { ready with irSt := .bitLow, irCnt := 749,
                                    wires := { Wires.idle with cap := some .rising, width := some 750 } })
      (fun t => (t.irSt, t.irCnt)) = some (.syncGap, 0) := by decide

theorem test_irarm : after (exec .irarm { ready with irCnt := 40000, wires := { Wires.idle with cap := some .falling } })
    (fun t => (t.irSt, t.irCnt)) = some (.syncLow, 0) := by decide

theorem test_iraddr_and_ircmd :
    after (exec .iraddr { ready with irSt := .bitLow, wires := { Wires.idle with packet := some 0x112#12 } })
        (fun t => (t.irSt, t.wires.packet)) = some (.syncGap, none)
      ∧ after (exec .ircmd { ready with irSt := .bitLow, wires := { Wires.idle with packet := some 0x0E5#12 } })
        (fun t => (t.irSt, t.wires.posts.ir)) = some (.rel, some 0x01#8) := by decide

theorem test_v75_release_restart :
    after (exec .irrel { ready with irSt := .rel, irCnt := 39999, wires := { Wires.idle with cap := some .rising } })
      (fun t => (t.irSt, t.irCnt)) = some (.rel, 0) := by decide

theorem test_v72_timeout :
    after (exec .irtimeout { ready with irSt := .bitGap, irCnt := 39999 })
        (fun t => (t.irSt, t.irCnt, t.out.rejects)) = some (.idle, 40000, [.incomplete])
      ∧ after (exec .irtimeout { ready with irSt := .bitGap, irCnt := 39998 }) (fun t => (t.irSt, t.irCnt))
        = some (.bitGap, 39999) := by decide

/-! ### Event Aggregator and host operations (V80 to V95) -/

/-- The response and the mailbox after one tick of a host operation. -/
def hostTick (s : State) (btnN : LineMask) (op : HostWord) : Option (Byte × Byte) :=
  after (step { s with inputs := [lines btnN 0#4 true op] }) (fun t => (t.out.hostRsp, t.evt))

theorem test_v80_nop : hostTick { ready with evt := 0x04#8 } 0x3F#6 0b000#3 = some (0x00#8, 0x04#8) := by decide

theorem test_v81_peek : hostTick { ready with evt := 0x04#8 } 0x3F#6 0b011#3 = some (0x04#8, 0x04#8) := by decide

theorem test_v82_pop : hostTick { ready with evt := 0x04#8 } 0x3F#6 0b010#3 = some (0x04#8, 0x00#8) := by decide

theorem test_v83_pop_empty : hostTick ready 0x3F#6 0b010#3 = some (0x00#8, 0x00#8) := by decide

theorem test_v84_reserved : [0b101#3, 0b110#3, 0b111#3].map (hostTick { ready with evt := 0x04#8 } 0x3F#6)
    = [some (0x00#8, 0x04#8), some (0x00#8, 0x04#8), some (0x00#8, 0x04#8)] := by decide

theorem test_v85_isany_idle : hostTick { ready with evt := 0x04#8 } 0x3F#6 0b100#3 = some (0x00#8, 0x04#8) := by decide

theorem test_v86_v87_isany : hostTick ready 0x1F#6 0b100#3 = some (0x01#8, 0x00#8)
    ∧ hostTick { ready with irSt := .rel } 0x3F#6 0b100#3 = some (0x01#8, 0x00#8) := by decide

theorem test_v90_pop_and_post :
    hostTick { ready with evt := 0x02#8, pchSt := .dbRel, dbCand := 1#6, dbCnt := 9999 } 0x3F#6 0b010#3
    = some (0x02#8, 0x01#8) := by decide

theorem test_v92_v93_post_order :
    after (exec .post { ready with wires := { Wires.idle with posts := ⟨some 0x01#8, none, none, some 0x08#8⟩ } }) (·.evt)
        = some 0x08#8
      ∧ after (exec .post { ready with wires := { Wires.idle with posts := ⟨none, some 0x04#8, some 0x10#8, none⟩ } })
        (·.evt) = some 0x10#8 := by decide

theorem test_v94_init :
    after (step { State.reset with evt := 0x02#8, irSt := .rel, ices := true, inputs := [lines 0x3E#6 0#4 true 0b001#3] })
      (fun t => ((t.pcie, t.icie, t.ices, t.pcif), t.irSt, t.pchSt, t.evt))
    = some ((true, true, false, false), .idle, .idle, 0x02#8) := by decide

theorem test_v95_init_drops_the_press :
    after (step { ready with pchSt := .dbRel, dbCand := 1#6, dbCnt := 9999, inputs := [lines 0x3F#6 0#4 true 0b001#3] })
      (fun t => (t.pchSt, t.evt, t.dbCnt)) = some (.idle, 0x00#8, 9999) := by decide

theorem test_v98_reset :
    after (step { ready with evt := 0x02#8, encA := ⟨1#2, 1, true⟩, tcnt := 99,
                             inputs := [{ lines 0x3E#6 0#4 true 0b011#3 with rst := true }] })
      (fun t => (t.out.hostRsp, t.evt, t.icie, t.encA, t.tcnt)) = some (0x00#8, 0x00#8, false, ⟨0#2, 0, false⟩, 0) := by
  decide

/-! ### Witnesses: states that meet the hypotheses of the obligations, clause by clause -/

/-- Parameters within rule R10 whose windows are a few ticks long. -/
def tiny : Config :=
  { Config.reference with
    w := 4, tZeroMin := 1, tZeroMax := 2, tOneMin := 3, tOneMax := 4, tLeadMin := 5, tLeadMax := 6, tTimeout := 8
    tPress := 2, tDebounce := 2, tSettle := 2, tDbMax := some 5, tEnMax := some 4 }

/-- The enabled machine at those parameters. -/
def small : State := { ready with cfg := tiny }

/-- A tick's lines: button line 0 pressed, or none. -/
def pressed : Wires := wiresOf (lines 0x3E#6 0#4 true 0#3)

def released : Wires := wiresOf (lines 0x3F#6 0#4 true 0#3)

theorem witness_DecodeInvertsEncode : (Instr.pkt 2#5 0x12#7).wf = true
    ∧ encode (.pkt 2#5 0x12#7) = some (.packet 0x112#12) := by decide

theorem witness_StepRunsTheDecodedInstruction : small.cfg.valid = true
    ∧ { small with inputs := [Inputs.idle] }.inputs = Inputs.idle :: [] ∧ Inputs.idle.rst = false := by decide

theorem witness_ResetTickLeavesResetState : small.cfg.valid = true
    ∧ { small with inputs := [{ Inputs.idle with rst := true }] }.inputs = { Inputs.idle with rst := true } :: [] := by
  decide

theorem witness_BadConfigurationIsRefused : WithinConstraints tiny
    ∧ ¬ WithinConstraints { tiny with tPress := 0 } ∧ ¬ WithinConstraints { tiny with cmdMap := [] }
    ∧ ¬ WithinConstraints { tiny with cmdMap := [(0x12#7, .volumeUp), (0x01#7, .selectLeftUp)] }
    ∧ ¬ WithinConstraints { tiny with nBits := 11 } ∧ ¬ WithinConstraints { tiny with blipsPerDetent := 5 } := by
  have cmd : ∀ c : BitVec 7, tiny.commandButton c ≠ .selectLeftUp ∧ tiny.commandButton c ≠ .selectRightDown := by decide
  refine ⟨⟨by decide, by decide, by decide, by decide, by decide, by decide, by decide, by decide, by decide, by decide,
    by decide, ?_, ?_, by decide, by decide, cmd, by decide⟩, ?_, ?_, ?_, ?_, ?_⟩
  · intro b hb
    cases hb
    decide
  · intro b hb
    cases hb
    decide
  · exact fun h => absurd h.1 (by decide)
  · exact fun ⟨_, _, _, _, _, _, _, _, _, _, _, _, _, _, h, _⟩ => absurd h (by decide)
  · exact fun ⟨_, _, _, _, _, _, _, _, _, _, _, _, _, _, _, h, _⟩ => absurd (h 0x01#7).1 (by decide)
  · exact fun ⟨_, _, _, _, _, _, _, _, _, _, _, _, _, _, _, _, h, _⟩ => absurd h (by decide)
  · exact fun ⟨_, _, _, _, _, _, _, _, _, _, _, _, _, _, _, _, _, _, _, _, _, h⟩ => absurd h (by decide)

theorem witness_PulseWidthsAreClassified : tiny.tZeroMax < tiny.tOneMin ∧ decodeDataPulse tiny 3 = .symOne := by decide

theorem witness_EveryOperationCompletes : small.cfg.valid = true ∧ completes (step { small with inputs := [Inputs.idle] }) := by
  decide

theorem witness_TickValuesDoNotSurvive : completes (step { small with inputs := [Inputs.idle] }) = true := by decide

theorem witness_NopAndReservedCodesCallNothing : Instr.reserved7 ∈ [Instr.nop, .reserved5, .reserved6, .reserved7] := by
  decide

theorem witness_OtherHostOperationsRunTheSameTick : small.cfg.valid = true ∧ Inputs.idle.rst = false
    ∧ 0b011#3 ∈ [0b011#3, 0b100#3, 0b101#3, 0b110#3, 0b111#3] ∧ 0b100#3 ∈ [0b011#3, 0b100#3, 0b101#3, 0b110#3, 0b111#3] := by
  decide

theorem witness_PopAndPostLoseNothing : small.cfg.valid = true ∧ Inputs.idle.rst = false := by decide

theorem witness_InitTickRunsNoEngine : small.cfg.valid = true ∧ (lines 0x3E#6 0#4 false 0b001#3).rst = false
    ∧ (lines 0x3E#6 0#4 false 0b001#3).hostOp = 0b001#3 := by decide

theorem witness_BeforeInitNothingMoves : State.reset.cfg.valid = true ∧ Inputs.idle.rst = false
    ∧ Inputs.idle.hostOp ≠ 0b001#3 ∧ State.reset.pcie = false ∧ State.reset.icie = false ∧ State.reset.irSt = .idle
    ∧ State.reset.evt = 0x00#8 := by decide

/-- A release wait that its next tick confirms. -/
def confirming : State := { small with pchSt := .dbRel, dbCand := 1#6, dbCnt := 1, inputs := [Inputs.idle] }

/-- A twelfth data pulse that its next tick ends: a `ZERO` of two ticks, in the packet VolumeUp. -/
def completing : State :=
  { small with irSt := .bitLow, ices := true, irPrev := false, irCnt := 1, bitIdx := 11#4, pkt := 0x092#12, tcnt := 2,
               inputs := [Inputs.idle] }

theorem witness_EvtChangesOnlyByPopOrPost : Inputs.idle.rst = false ∧ Inputs.idle.hostOp ≠ 0b010#3
    ∧ after (step confirming) (fun t => decide (t.evt ≠ confirming.evt)) = some true
    ∧ after (step completing) (fun t => decide (t.evt ≠ completing.evt)) = some true := by decide

theorem witness_PendingEventOutlivesAllButPop : Invariant { completing with evt := 0x08#8 }
    ∧ Inputs.idle.hostOp ≠ 0b010#3 ∧ { completing with evt := 0x08#8 }.evtPending = true ∧ small.evtPending = false
    ∧ after (step { completing with evt := 0x08#8 }) (·.evt) = some 0x04#8 := by decide

theorem witness_CaptureLatchesTheSelectedEdge :
    (small.icie = true ∧ small.wires.hold = false ∧ small.ices = false
      ∧ { small with wires := { Wires.idle with fall := true } }.wires.fall = true)
    ∧ ({ small with ices := true, wires := { Wires.idle with rise := true } }.ices = true
      ∧ { small with ices := true, wires := { Wires.idle with rise := true } }.wires.rise = true)
    ∧ ¬ CaptureDue small ∧ ¬ CaptureDue { small with wires := { Wires.idle with fall := true, hold := true } }
    ∧ ¬ CaptureDue { small with ices := true, wires := { Wires.idle with fall := true } } := by decide

theorem witness_WidthIsTheModularDifference :
    { small with wires := { Wires.idle with cap := some .rising } }.wires.cap = some .rising
      ∧ { small with wires := { Wires.idle with cap := some .falling } }.wires.cap ≠ some .rising
      ∧ small.wires.cap ≠ some .rising := by decide

/-- One tick into a low pulse whose falling edge was captured at the counter's last value before its wrap. -/
def measuring : State :=
  { small with irSt := .syncLow, ices := true, irPrev := false, irCnt := 0, tcnt := 0, capStart := 15,
               inputs := [lines 0x3F#6 0#4 false 0#3] }

theorem witness_MeasuredWidthIsTheTrueTickCount : Invariant measuring ∧ WidthIsExact measuring
    ∧ after (step measuring) (fun t => (t.irSt, t.irCnt)) = some (.syncLow, 1) := by decide

theorem witness_CounterOffsetIsUnobservable :
    completes (Sys2Proof.core.run 1 { State.reset with cfg := tiny, inputs := [Inputs.idle] }) = true := by decide

theorem witness_CountWraps : Inputs.idle.rst = false
    ∧ after (step { small with tcnt := 15, inputs := [Inputs.idle] }) (·.tcnt) = some 0 := by decide

theorem witness_EdgeComparesWithThePreviousSample : Inputs.idle.rst = false
    ∧ completes (step { small with irPrev := false, inputs := [Inputs.idle] }) = true := by decide

theorem witness_PinChangeSetWinsOverClear : small.wires.hold = false
    ∧ { small with wires := { Wires.idle with hold := true } }.wires.hold = true
    ∧ completes (step { small with inputs := [Inputs.idle] }) = true
    ∧ completes (step { small with pcif := true, inputs := [lines 0x3E#6 0#4 true 0b001#3] }) = true := by decide

theorem witness_PcstartStartsAHandlerRun :
    (small.pcie = true ∧ small.wires.hold = false ∧ small.pchSt = .idle ∧ { small with pcif := true }.pcif = true)
    ∧ ((~~~pressed.inp.btnN &&& 0x3F#6) ≠ 0#6 ∧ 1 < small.cfg.tPress)
    ∧ { tiny with tPress := 1 }.valid = true ∧ { tiny with tPress := 1 }.tPress ≤ 1
    ∧ (~~~released.inp.btnN &&& 0x3F#6) = 0#6
    ∧ ¬ (small.pcie = true ∧ small.wires.hold = false ∧ small.pchSt = .idle ∧ small.pcif = true) := by decide

theorem witness_DbstartEntersTheEngine :
    ((~~~pressed.inp.btnN &&& 0x3F#6) ≠ 0#6 ∧ 1 < small.cfg.tPress) ∧ { tiny with tPress := 1 }.tPress ≤ 1
      ∧ (~~~released.inp.btnN &&& 0x3F#6) = 0#6 := by decide

/-- A press in qualification with the count and the total given. -/
def qualifying (cand : LineMask) (cnt tot : Nat) : State :=
  { small with pchSt := .dbQual, dbCand := cand, dbCnt := cnt, dbTot := tot, wires := pressed }

theorem witness_DbqualQualifiesThePress :
    (small.pcie = true ∧ pressed.hold = false ∧ (qualifying 1#6 1 1).pchSt = .dbQual)
    ∧ ((~~~pressed.inp.btnN &&& 0x3F#6) = (qualifying 1#6 1 4).dbCand ∧ tiny.tPress ≤ (qualifying 1#6 1 4).dbCnt + 1)
    ∧ ((qualifying 1#6 0 3).dbCnt + 1 < tiny.tPress ∧ (∀ b, tiny.tDbMax = some b → (qualifying 1#6 0 3).dbTot + 1 < b))
    ∧ (∃ b, tiny.tDbMax = some b ∧ b ≤ (qualifying 1#6 0 4).dbTot + 1)
    ∧ ((~~~released.inp.btnN &&& 0x3F#6) ≠ (qualifying 1#6 1 1).dbCand ∧ (~~~released.inp.btnN &&& 0x3F#6) = 0#6)
    ∧ ((~~~pressed.inp.btnN &&& 0x3F#6) ≠ (qualifying 3#6 1 1).dbCand ∧ (~~~pressed.inp.btnN &&& 0x3F#6) ≠ 0#6) := by
  refine ⟨by decide, by decide, ⟨by decide, ?_⟩, ⟨5, by decide⟩, by decide, by decide⟩
  intro b hb
  cases hb
  decide

theorem witness_DbrelWaitsForTheRelease :
    (small.pcie = true ∧ confirming.wires.hold = false ∧ confirming.pchSt = .dbRel ∧ 1 ≤ confirming.cfg.tDebounce)
    ∧ (~~~pressed.inp.btnN &&& 0x3F#6) ≠ 0#6
    ∧ (∀ b, tiny.tDbMax = some b → { confirming with dbTot := 3 }.dbTot + 1 < b)
    ∧ (∃ b, tiny.tDbMax = some b ∧ b ≤ { confirming with dbTot := 4 }.dbTot + 1)
    ∧ ((~~~released.inp.btnN &&& 0x3F#6) = 0#6 ∧ { confirming with dbCnt := 0 }.dbCnt + 1 < tiny.tDebounce)
    ∧ tiny.tDebounce ≤ confirming.dbCnt + 1 := by
  refine ⟨by decide, by decide, ?_, ⟨5, by decide⟩, by decide, by decide⟩
  intro b hb
  cases hb
  decide

theorem witness_PressIsAcceptedOnlyAfterAStableRead :
    (after (step { qualifying 1#6 1 1 with inputs := [lines 0x3E#6 0#4 true 0#3] }) (·.pchSt) = some .dbRel
      ∧ (qualifying 1#6 1 1).pchSt ≠ .dbRel ∧ CandidateIsPressed (qualifying 1#6 1 1))
    ∧ CandidateIsPressed { small with pcif := true }
    ∧ after (step { small with cfg := { tiny with tPress := 1 }, pcif := true, inputs := [lines 0x3E#6 0#4 true 0#3] })
        (·.pchSt) = some .dbRel := by decide

theorem witness_ConfirmedReleasePostsTheLatchedMask :
    tiny.valid = true ∧ 1 < tiny.tSettle ∧ small.pcie = true ∧ { confirming with dbCnt := 0, dbTot := 3 }.dbCnt < tiny.tDebounce
    ∧ (∀ b, tiny.tDbMax = some b → { confirming with dbCnt := 0, dbTot := 3 }.dbTot + (tiny.tDebounce - 0) ≤ b)
    ∧ [Inputs.idle, Inputs.idle].length = tiny.tDebounce - 0
    ∧ (∀ i ∈ [Inputs.idle, Inputs.idle], i.rst = false ∧ i.hostOp = 0b000#3 ∧ i.btnN = 0x3F#6 ∧ i.irIn = confirming.irPrev) := by
  refine ⟨by decide, by decide, by decide, by decide, ?_, by decide, by decide⟩
  intro b hb
  cases hb
  decide

/-- An initialised knob at the count given. -/
def turned (b : Int) : State := { small with encA := ⟨3#2, b, true⟩, encB := ⟨3#2, b, true⟩ }

theorem witness_ForwardWordsCountUp :
    (Instr.qFwd30 .A, 0#2) ∈ [(Instr.qFwd01 .A, 1#2), (.qFwd12 .A, 2#2), (.qFwd23 .A, 3#2), (.qFwd30 .A, 0#2)]
    ∧ ((turned 3).enc .A).initialized = true ∧ BelowDetent tiny ((turned 3).enc .A)
    ∧ ((turned 3).enc .A).blips + 1 = tiny.blipsPerDetent
    ∧ BelowDetent tiny ((turned (-3)).enc .B) ∧ ((turned (-3)).enc .B).blips + 1 ≠ tiny.blipsPerDetent := by decide

theorem witness_ReverseWordsCountDown :
    (Instr.qRev32 .A, 2#2) ∈ [(Instr.qRev03 .A, 3#2), (.qRev10 .A, 0#2), (.qRev21 .A, 1#2), (.qRev32 .A, 2#2)]
    ∧ ((turned (-3)).enc .A).initialized = true ∧ BelowDetent tiny ((turned (-3)).enc .A)
    ∧ ((turned (-3)).enc .A).blips - 1 = -(tiny.blipsPerDetent : Int)
    ∧ BelowDetent tiny ((turned 3).enc .B) ∧ ((turned 3).enc .B).blips - 1 ≠ -(tiny.blipsPerDetent : Int) := by decide

theorem witness_SameAndSkipWordsCountNothing :
    (Instr.qSkip31 .A, 1#2) ∈ [(Instr.qSame00 .A, 0#2), (.qSame11 .A, 1#2), (.qSame22 .A, 2#2), (.qSame33 .A, 3#2),
      (.qSkip02 .A, 2#2), (.qSkip13 .A, 3#2), (.qSkip20 .A, 0#2), (.qSkip31 .A, 1#2)]
    ∧ ((turned 3).enc .A).initialized = true ∧ BelowDetent tiny ((turned 3).enc .A)
    ∧ BelowDetent tiny ((turned (-3)).enc .B) := by decide

theorem witness_FirstSampleSeedsTheKnob : (small.enc .A).initialized = false ∧ (small.enc .B).initialized = false := by
  decide

theorem witness_QstepRunsTheWordOfItsTransition :
    ((turned 0).enc .A).initialized = true ∧ ((turned 3).enc .B).initialized = true := by decide

theorem witness_KnobsShareNoState :
    completes (exec (.qstep .A) (turned 3)) = true ∧ completes (exec (.qstep .B) (turned 3)) = true := by decide

theorem witness_FourQuartersMakeOneDetent : tiny.blipsPerDetent = 4
    ∧ { small with encB := ⟨0#2, 0, true⟩ }.enc .B = ⟨0#2, 0, true⟩ := by decide

/-- A settle window with the count, the total and the remembered lines given; the lines read 0. -/
def settling (cnt tot : Nat) (raw : BitVec 4) : State :=
  { small with pchSt := .enSettle, enCnt := cnt, enTot := tot, enRaw := raw, wires := released }

theorem witness_EnsettleWaitsForAStillPort :
    (small.pcie = true ∧ released.hold = false ∧ (settling 1 0 0#4).pchSt = .enSettle)
    ∧ ((settling 1 0 0#4).wires.inp.enc = (settling 1 0 0#4).enRaw ∧ tiny.tSettle ≤ (settling 1 3 0#4).enCnt + 1)
    ∧ ((settling 0 2 0#4).enCnt + 1 < tiny.tSettle ∧ (∀ b, tiny.tEnMax = some b → (settling 0 2 0#4).enTot + 1 < b))
    ∧ (∃ b, tiny.tEnMax = some b ∧ b ≤ (settling 0 3 0#4).enTot + 1)
    ∧ ((settling 1 2 1#4).wires.inp.enc ≠ (settling 1 2 1#4).enRaw ∧ 1 < tiny.tSettle)
    ∧ ({ tiny with tSettle := 1 }.valid = true ∧ { tiny with tSettle := 1 }.tSettle ≤ 1) := by
  refine ⟨by decide, by decide, ⟨by decide, ?_⟩, ⟨4, by decide⟩, by decide, by decide⟩
  intro b hb
  cases hb
  decide

/-- A capture of the direction given stands on its wire, with the width it delivers. -/
def caught (st : IrState) (e : Edge) (w : Option Nat) : State :=
  { small with irSt := st, wires := { Wires.idle with cap := some e, width := w } }

theorem witness_FallingEdgeEntersThePulse :
    ((caught .idle .falling none).wires.cap ≠ none ∧ (caught .idle .falling none).irSt = .idle)
    ∧ (caught .syncGap .falling none).irSt = .syncGap ∧ (caught .bitGap .falling none).irSt = .bitGap
    ∧ small.wires.cap = none := by decide

theorem witness_PulsesRunTheSymbolOfTheirWidth :
    ((caught .syncLow .rising (some 5)).wires.cap ≠ none ∧ (caught .syncLow .rising (some 5)).wires.width = some 5
      ∧ (caught .syncLow .rising (some 5)).irSt = .syncLow)
    ∧ (caught .bitLow .rising (some 4)).irSt = .bitLow ∧ (caught .bitLow .rising (some 4)).wires.width = some 4 := by decide

theorem witness_SyncSymbolsStartOrPassOver :
    { small with irSt := .syncLow }.irSt = .syncLow ∧ { small with irSt := .bitLow }.irSt ≠ .syncLow := by decide

theorem witness_DataSymbolsStoreOrReject :
    ({ small with irSt := .bitLow, bitIdx := 10#4 }.irSt = .bitLow ∧ (10#4).toNat + 1 ≠ small.cfg.nBits)
    ∧ (11#4).toNat + 1 = small.cfg.nBits ∧ { small with irSt := .syncLow }.irSt ≠ .bitLow := by
  decide

theorem witness_FrameAssemblesThePacket : small.cfg.nBits = 12 ∧ small.bitIdx = 0#4 ∧ small.pkt = 0x000#12 := by decide

/-- A packet completed in the running tick. -/
def received (p : Packet) : State := { small with irSt := .bitLow, wires := { Wires.idle with packet := some p } }

theorem witness_ForeignPacketsAreDiscarded :
    ((received 0x112#12).wires.packet = some 0x112#12 ∧ (0x112#12).extractLsb' 7 5 ≠ small.cfg.rxAddr)
    ∧ (0x092#12).extractLsb' 7 5 = small.cfg.rxAddr ∧ small.wires.packet = none ∧ 2#5 ≠ small.cfg.rxAddr := by decide

theorem witness_AcceptedPacketsPostTheirCommand :
    ((received 0x080#12).wires.packet = some 0x080#12 ∧ (0x080#12).extractLsb' 0 7 = 0x00#7
      ∧ small.cfg.commandButton 0x00#7 = .noButton)
    ∧ (0x092#12).extractLsb' 0 7 = 0x12#7 ∧ small.cfg.commandButton 0x12#7 ≠ .noButton := by decide

theorem witness_ListedPacketsPostTheirButtons : (Instr.pktVolumeUp, 0x12#7) ∈ [(Instr.pktVolumeUp, 0x12#7),
      (.pktVolumeDown, 0x13#7)] ∧ small.cfg.rxAddr = 1#5 ∧ small.cfg.cmdMap = Config.reference.cmdMap := by
  decide

theorem witness_IrrelOnlyRestartsTheSilence :
    (caught .rel .rising (some 1)).irSt = .rel ∧ (caught .rel .rising (some 1)).wires.cap ≠ none ∧ small.wires.cap = none := by
  decide

theorem witness_IrtimeoutReturnsToIdle :
    (small.icie = true ∧ small.wires.hold = false ∧ small.wires.cap = none)
    ∧ ({ small with irSt := .bitGap, irCnt := 6 }.irSt ≠ .idle ∧ { small with irSt := .bitGap, irCnt := 6 }.irCnt + 1 < tiny.tTimeout)
    ∧ tiny.tTimeout ≤ { small with irSt := .bitGap, irCnt := 7 }.irCnt + 1 ∧ small.irSt = .idle := by decide

theorem witness_SilenceReturnsTheDecoderToIdle :
    tiny.valid = true ∧ small.icie = true ∧ { small with irSt := .rel, irCnt := 6 }.irSt ≠ .idle
    ∧ { small with irSt := .rel, irCnt := 6 }.irCnt < tiny.tTimeout
    ∧ [Inputs.idle, Inputs.idle].length = tiny.tTimeout - { small with irSt := .rel, irCnt := 6 }.irCnt
    ∧ ∀ i ∈ [Inputs.idle, Inputs.idle], i.rst = false ∧ i.hostOp ≠ 0b001#3 ∧ i.irIn = small.irPrev := by decide

theorem witness_StepKeepsTheInvariant : Invariant measuring ∧ completes (step measuring) = true
    ∧ Invariant completing ∧ completes (step completing) = true :=
  ⟨by decide, by decide, by decide, by decide⟩

theorem witness_ReachableStatesKeepTheTenFacts : tiny.valid = true
    ∧ completes (Sys2Proof.core.run 2 { State.reset with cfg := tiny, inputs := [Inputs.idle, Inputs.idle] }) = true := by
  decide

theorem witness_EnablesAndSeedsFallOnlyAtReset :
    ({ turned 0 with inputs := [Inputs.idle] }.icie = true ∧ (turned 0).encA.initialized = true)
    ∧ completes (step { turned 0 with inputs := [Inputs.idle] }) = true ∧ Inputs.idle.rst = false
    ∧ Inputs.idle.hostOp ≠ 0b001#3 := by decide

theorem witness_DecoderLeavesIdleOnlyAtAFallingEdge :
    EdgeSelectFits { small with inputs := [lines 0x3F#6 0#4 false 0#3] } ∧ small.irSt = .idle
    ∧ after (step { small with inputs := [lines 0x3F#6 0#4 false 0#3] }) (·.irSt) = some .syncLow := by decide

end Sys2Proof.Tests
end

/-! The statements of 00_scope.md: how a tick is composed of its operations (rule R7), and which configurations are
refused (rule R10). First the facts about the test of a configuration and about running a list of operations. -/

namespace Sys2Proof

/-! ### The test of a configuration -/

/-- The values `CMD_MAP` may take are all but the two of the local selector knob (30_encoding.md rule R87). -/
theorem LogicalButton.remoteCapable_iff (b : LogicalButton) :
    b.remoteCapable = true ↔ b ≠ .selectLeftUp ∧ b ≠ .selectRightDown := by
  cases b <;> decide

/-- `x <= bound` for a bound that may be `inf`. -/
theorem Config.withinBound_iff (x : Nat) (bound : Option Nat) :
    Config.withinBound x bound = true ↔ ∀ b, bound = some b → x ≤ b := by
  cases bound <;> simp [Config.withinBound]

/-- An unlisted command is unrecognised (30_encoding.md rule R87). -/
theorem Config.commandButton_unlisted {c : Config} {cmd : BitVec 7} (h : ∀ row ∈ c.cmdMap, row.1 ≠ cmd) :
    c.commandButton cmd = .noButton := by
  have noRow : c.cmdMap.find? (fun row => row.1 == cmd) = none := by simpa using h
  rw [Config.commandButton, noRow]
  rfl

/-- Testing the listed commands tests every command: an unlisted one maps to `None`, which is remote-capable. -/
theorem Config.all_remoteCapable_iff (c : Config) :
    c.cmdMap.all (fun row => (c.commandButton row.1).remoteCapable) = true
      ↔ ∀ cmd, (c.commandButton cmd).remoteCapable = true := by
  rw [List.all_eq_true]
  constructor
  · intro listed cmd
    by_cases h : ∃ row ∈ c.cmdMap, row.1 = cmd
    · obtain ⟨row, hmem, rfl⟩ := h
      exact listed row hmem
    · rw [Config.commandButton_unlisted fun row hmem heq => h ⟨row, hmem, heq⟩]
      rfl
  · exact fun all row _ => all row.1

/-- Rule R87's conditions on `CMD_MAP`, over all commands. -/
theorem Config.commandsFit_iff (c : Config) :
    c.commandsFit = true ↔ c.commandButton 0x12#7 = .volumeUp
      ∧ ∀ cmd, c.commandButton cmd ≠ .selectLeftUp ∧ c.commandButton cmd ≠ .selectRightDown := by
  simp only [Config.commandsFit, Bool.and_eq_true, decide_eq_true_eq, Config.all_remoteCapable_iff,
    LogicalButton.remoteCapable_iff]

/-- The values of the structural parameters that the registers are written for (assumption log 22). -/
theorem Config.fitsRegisters_iff (c : Config) :
    c.fitsRegisters = true ↔ c.nBits = 12 ∧ c.addrBits = 5 ∧ c.cmdBits = 7 ∧ c.nBtn = 6
      ∧ 1 ≤ c.blipsPerDetent ∧ c.blipsPerDetent ≤ 4 := by
  simp only [Config.fitsRegisters, Bool.and_eq_true, decide_eq_true_eq]

/-- The test of a configuration decides the constraints; `RX_ADDR < 32` is the width of the parameter. -/
theorem Config.valid_iff (c : Config) : c.valid = true ↔ Machine.WithinConstraints c := by
  have rxAddr_lt : c.rxAddr.toNat < 32 := c.rxAddr.isLt
  simp only [Config.valid, Machine.WithinConstraints, Bool.and_eq_true, decide_eq_true_eq, Config.withinBound_iff,
    Config.commandsFit_iff, Config.fitsRegisters_iff, rxAddr_lt, true_and, and_assoc]

end Sys2Proof

namespace Sys2Proof.Machine

open Sys2Proof

/-! ### Lists of operations -/

@[simp] theorem runOps_nil (s : State) : runOps [] s = .next s := rfl

/-- The first operation of a list runs, the rest on what it left. -/
theorem runOps_cons {i : Instr} {rest : List Instr} {s t : State} (h : exec i s = .next t) :
    runOps (i :: rest) s = runOps rest t := by
  simp only [runOps, h]

/-- A list of operations that completes is followed by the next list. -/
theorem runOps_append {l l' : List Instr} {s t : State} (h : runOps l s = .next t) :
    runOps (l ++ l') s = runOps l' t := by
  induction l generalizing s with
  | nil =>
    cases h
    rfl
  | cons i rest ih =>
    obtain ⟨u, hu⟩ := exec_next i s
    rw [runOps_cons hu] at h
    rw [List.cons_append, runOps_cons hu, ih h]

/-- The decoder's operations, after `CAPTURE` and `WIDTH`, are the decoder's step (43_ir_decoder.md rule R180). -/
theorem runOps_irOps (s : State) : runOps (irOps s) (widthOp (captureOp s)) = .next (irStep s) := by
  by_cases hd : CaptureDue s
  · rw [irOps, if_pos hd, irStep_captured hd]
    cases s.irSt <;> rfl
  · rw [irOps, if_neg hd, irStep_quiet hd, ← captured_none hd]
    rfl

/-- The sequencer's operation is the sequencer's step (45_arithmetic_control.md rule R303). -/
theorem runOps_pchOps (s : State) : runOps (pchOps s) s = .next (pchStep s) := by
  unfold pchOps pchStep
  cases s.pchSt <;> rfl

/-- The capture unit and the decoder leave the sequencer's state alone. -/
theorem irStep_pchSt (s : State) : (irStep s).pchSt = s.pchSt := by
  rw [irStep_frame s]
  rfl

/-- The decoder's step in front of it does not change which operation the sequencer runs. -/
theorem pchOps_irStep (s : State) : pchOps (irStep s) = pchOps s := by
  rw [pchOps, irStep_pchSt, pchOps]

/-- Both engines' operations leave the state at the end of phase P3. -/
theorem runOps_engines (s : State) : runOps ([.capture, .width] ++ irOps s ++ pchOps s) s = .next (enginesDone s) :=
  have captured : runOps [.capture, .width] s = .next (widthOp (captureOp s)) := rfl
  have decoded : runOps ([.capture, .width] ++ irOps s) s = .next (irStep s) :=
    (runOps_append captured).trans (runOps_irOps s)
  calc runOps ([.capture, .width] ++ irOps s ++ pchOps s) s
      = runOps (pchOps s) (irStep s) := runOps_append decoded
    _ = runOps (pchOps (irStep s)) (irStep s) := by rw [pchOps_irStep]
    _ = .next (enginesDone s) := runOps_pchOps (irStep s)

/-- All the internal operations of a tick: the engines', then the flag, the posts and the counter. -/
theorem runOps_tickOps (s : State) : runOps (tickOps s) s = .next (countOp (postOp (pcdetectOp (enginesDone s)))) :=
  runOps_append (runOps_engines s)

/-! ### A step by its configuration -/

/-- A configuration that passes the test runs, whatever the lines. -/
theorem runs_of_valid {s : State} (hv : s.cfg.valid = true) : Runs s := by
  unfold Runs step
  rw [if_pos hv]
  extract_lets i t
  by_cases hr : i.rst = true
  · exact ⟨t.resetTick, if_pos hr⟩
  · obtain ⟨u, hu⟩ := exec_next (decodeHost i.hostOp) (beginTick i t)
    exact ⟨finishTick u, by rw [if_neg hr, hu]⟩

/-- A configuration that fails the test is refused. -/
theorem step_badConfiguration {s : State} (hv : ¬ s.cfg.valid = true) : step s = .refused .badConfiguration :=
  if_neg hv

/-! ### The obligations -/

/-- Settles O5: on scheduled lines a step is the tick around the operation that `host_op` decodes to. -/
theorem stepRunsTheDecodedInstruction : Obligations.StepRunsTheDecodedInstruction := by
  intro s i rest hv hi hr
  obtain ⟨u, hu⟩ := exec_next (decode (.host i.hostOp)) (beginTick i { s with inputs := rest })
  rw [step_exec hv hi hr hu, hu]

/-- Settles O6: the operations run to the state that `finishTick` then clears of its wires. -/
theorem tickRunsItsOperations : Obligations.TickRunsItsOperations :=
  fun u => ⟨_, runOps_tickOps u, rfl⟩

/-- Settles O8: the test of a configuration decides the constraints, and a step goes by that test. -/
theorem badConfigurationIsRefused : Obligations.BadConfigurationIsRefused := by
  intro s
  rw [← Config.valid_iff]
  exact ⟨runs_of_valid, step_badConfiguration⟩

end Sys2Proof.Machine

/-! The statements of 10_state.md: what holds in every reachable state (rule R48), what does not survive a tick (rule
R47), and when the enables and the knobs' `initialized` bits change (rules R25, R32, R44). First everything a step of
the decoder can do; then each item of the invariant over phases P1 and P2 (`HostDone`) and over the end of the tick. -/

namespace Sys2Proof.Machine

open Sys2Proof

/-! ### What the engines leave as it was, and the registers after the end of a tick -/

/-- What does not depend on the sequencer's registers is as it was. -/
theorem PchFrame.keeps {α : Type} {s t : State} (h : PchFrame s t) (f : State → α)
    (hf : ∀ s t, f (s.pchPart t) = f s) : f t = f s := by
  rw [show t = s.pchPart t from h, hf]

/-- What does not depend on the decoder's registers is as it was. -/
theorem IrFrame.keeps {α : Type} {s t : State} (h : IrFrame s t) (f : State → α)
    (hf : ∀ s t, f (s.irPart t) = f s) : f t = f s := by
  rw [show t = s.irPart t from h, hf]

/-- What depends on neither engine's registers is as it was before phase P3. -/
theorem enginesDone_keeps {α : Type} (u : State) (f : State → α) (hp : ∀ s t, f (s.pchPart t) = f s)
    (hi : ∀ s t, f (s.irPart t) = f s) : f (enginesDone u) = f u :=
  ((pchStep_frame (irStep u)).keeps f hp).trans ((irStep_frame u).keeps f hi)

@[simp] theorem finishTick_wires (u : State) : (finishTick u).wires = Wires.idle := rfl

@[simp] theorem finishTick_cfg (u : State) : (finishTick u).cfg = u.cfg :=
  enginesDone_keeps u State.cfg (fun _ _ => rfl) (fun _ _ => rfl)

@[simp] theorem finishTick_icie (u : State) : (finishTick u).icie = u.icie :=
  enginesDone_keeps u State.icie (fun _ _ => rfl) (fun _ _ => rfl)

@[simp] theorem finishTick_pcie (u : State) : (finishTick u).pcie = u.pcie :=
  enginesDone_keeps u State.pcie (fun _ _ => rfl) (fun _ _ => rfl)

@[simp] theorem finishTick_irPrev (u : State) : (finishTick u).irPrev = u.irPrev :=
  enginesDone_keeps u State.irPrev (fun _ _ => rfl) (fun _ _ => rfl)

/-- The counter counts once in every tick (40_capture.md rule R110). -/
@[simp] theorem finishTick_tcnt (u : State) : (finishTick u).tcnt = countUp u.cfg u.tcnt :=
  enginesDone_keeps u (fun t => countUp t.cfg t.tcnt) (fun _ _ => rfl) (fun _ _ => rfl)

theorem finishTick_encA (u : State) : (finishTick u).encA = (pchStep (irStep u)).encA := rfl

theorem finishTick_encB (u : State) : (finishTick u).encB = (pchStep (irStep u)).encB := rfl

/-- With both engines disabled a tick's end changes neither their states nor the mailbox. -/
theorem finishTick_disabled {u : State} (hi : u.icie = false) (hp : u.pcie = false) (hf : u.pcif = false)
    (hn : u.wires.posts = ⟨none, none, none, none⟩) :
    (finishTick u).irSt = u.irSt ∧ (finishTick u).pchSt = u.pchSt ∧ (finishTick u).pcif = false
      ∧ (finishTick u).evt = u.evt := by
  have ir : irStep u = { u with wires := { u.wires with cap := none, width := none } } :=
    irStep_held (by simp [State.irRuns, hi])
  have done : enginesDone u = { u with wires := { u.wires with cap := none, width := none } } := by
    rw [enginesDone, ir]
    exact pchStep_held (by simp [State.pchRuns, hp])
  rw [finishTick_eq, done]
  simp [hp, hf, hn, nextPcif, applyPost]

/-! ### What the decoder's step can do -/

/-- The registers of the capture unit and the decoder that the rules of 43_ir_decoder.md write in the tick of a capture
or of a time-out, but the packet; and the decoder's post. -/
structure DecoderRegs where
  irSt : IrState
  irCnt : Nat
  ices : Bool
  bitIdx : BitVec 4
  icr : Nat
  capStart : Nat
  post : Option Byte

def State.decoder (s : State) : DecoderRegs :=
  ⟨s.irSt, s.irCnt, s.ices, s.bitIdx, s.icr, s.capStart, s.wires.posts.ir⟩

/-- The sequencer's step leaves the decoder's registers and post as they are. -/
theorem pchStep_decoder (s : State) : (pchStep s).decoder = s.decoder :=
  (pchStep_frame s).keeps State.decoder fun _ _ => rfl

/-- The state that a falling edge enters (rules R181, R183, R184, R189). -/
def IrState.afterFall : IrState → IrState
  | .idle => .syncLow
  | .syncGap => .syncLow
  | .bitGap => .bitLow
  | .syncLow => .syncLow
  | .bitLow => .bitLow
  | .rel => .rel

/-- `s` after `CAPTURE` and `WIDTH` at a falling edge. -/
def State.fallen (s : State) : State :=
  { s with
    icr := s.tcnt
    capStart := s.tcnt
    ices := true
    wires := { s.wires with cap := some .falling, width := none } }

/-- `s` after `CAPTURE` and `WIDTH` at a rising edge. -/
def State.risen (s : State) : State :=
  { s with
    icr := s.tcnt
    ices := false
    wires := { s.wires with cap := some .rising, width := some (pulseWidth s.cfg s.tcnt s.capStart) } }

/-- Everything a step of the decoder can do from a state `s` whose selected edge is the one it waits for: without a
capture, at a falling edge, and from `lead` on at a rising edge. -/
inductive DecoderMove (s : State) : DecoderRegs → Prop
  /-- No capture, in `IR_IDLE` or disabled. -/
  | rest (hd : ¬ CaptureDue s) (hr : s.irRuns = true → s.irSt = .idle) : DecoderMove s s.decoder
  /-- No capture, the time-out counts (rule R190). -/
  | count (hd : ¬ CaptureDue s) (hs : s.irSt ≠ .idle) (hc : s.irCnt + 1 < s.cfg.tTimeout) :
    DecoderMove s { s.decoder with irCnt := s.irCnt + 1 }
  /-- No capture, the time-out (rule R190). -/
  | timeout (hd : ¬ CaptureDue s) (hs : s.irSt ≠ .idle) (hc : s.cfg.tTimeout ≤ s.irCnt + 1) :
    DecoderMove s { s.decoder with irCnt := s.irCnt + 1, irSt := .idle, ices := false }
  /-- A falling edge (rules R181, R183, R184, R189). -/
  | fall (hd : CaptureDue s) (hf : s.wires.fall = true) (he : s.ices = false) :
    DecoderMove s { s.fallen.decoder with irSt := s.irSt.afterFall, irCnt := 0 }
  /-- The end of a lead (rule R182). -/
  | lead (hs : s.irSt = .syncLow) : DecoderMove s { s.risen.decoder with irCnt := 0, irSt := .bitGap, bitIdx := 0#4 }
  /-- The end of a pulse that is not a lead, of a bad one, or of a foreign packet (rules R182, R185, R187). -/
  | resync (hs : s.irSt = .syncLow ∨ s.irSt = .bitLow) :
    DecoderMove s { s.risen.decoder with irCnt := 0, irSt := .syncGap }
  /-- The end of a bit that is not the packet's last (rule R186). -/
  | nextBit (hs : s.irSt = .bitLow) (hl : lastBit s.cfg s.bitIdx = false) :
    DecoderMove s { s.risen.decoder with irCnt := 0, irSt := .bitGap, bitIdx := s.bitIdx + 1#4 }
  /-- The end of an accepted packet whose command is unrecognised (rule R188). -/
  | ignore (hs : s.irSt = .bitLow) : DecoderMove s { s.risen.decoder with irCnt := 0, irSt := .rel }
  /-- The end of an accepted packet, with its post (rule R188). -/
  | accept (hs : s.irSt = .bitLow) (cmd : BitVec 7) :
    DecoderMove s { s.risen.decoder with irCnt := 0, irSt := .rel, post := some (s.cfg.commandButton cmd).code }
  /-- A rising edge in the release wait (rule R189). -/
  | restart (hs : s.irSt = .rel) : DecoderMove s { s.risen.decoder with irCnt := 0 }

/-- The time-out's operation in a tick without a capture. -/
theorem irtimeoutOp_move {s : State} (hd : ¬ CaptureDue s) :
    DecoderMove s (irtimeoutOp { s with wires := { s.wires with cap := none, width := none } }).decoder := by
  unfold irtimeoutOp
  split
  · rename_i hg
    have hs : s.irSt ≠ .idle := fun hs => by simp [hs, irBusy] at hg
    extract_lets counted idle
    split
    · rename_i hc
      split <;> exact .timeout hd hs hc
    · rename_i hc
      exact .count hd hs (Nat.lt_of_not_le hc)
  · rename_i hg
    refine .rest hd fun hr => by_contra fun hs => hg ?_
    simpa [State.irRuns, irBusy, hs] using hr

/-- A falling edge, in a state that waits for one. -/
theorem fallen_move {s : State} (hd : CaptureDue s) (hf : s.wires.fall = true) (he : s.ices = false) :
    (s.irSt = .idle → DecoderMove s (irarmOp s.fallen).decoder)
      ∧ (s.irSt = .syncGap → DecoderMove s (irsyncOp s.fallen).decoder)
      ∧ (s.irSt = .bitGap → DecoderMove s (irbitOp s.fallen).decoder)
      ∧ (s.irSt = .rel → DecoderMove s (irrelOp s.fallen).decoder) := by
  have move := DecoderMove.fall hd hf he
  refine ⟨fun hs => ?_, fun hs => ?_, fun hs => ?_, fun hs => ?_⟩ <;> rw [hs] at move
  · rw [irarmOp, if_pos ⟨hs, rfl⟩]
    exact move
  · simp only [irsyncOp, State.fallen, hs]
    exact move
  · simp only [irbitOp, State.fallen, hs]
    exact move
  · rw [irrelOp, if_pos ⟨hs, rfl⟩, State.decoder, State.fallen, hs]
    exact move

/-- The end of a pulse in frame sync. -/
theorem irsyncOp_move {s : State} (hs : s.irSt = .syncLow) : DecoderMove s (irsyncOp s.risen).decoder := by
  simp only [irsyncOp, State.risen, hs]
  split
  · simp only [leadOp, if_true]
    exact .lead hs
  · simp only [notLeadOp, if_true]
    exact .resync (.inl hs)

/-- An accepted command's effect on the decoder's registers and post. -/
theorem acceptCommand_decoder (p : Packet) (s : State) :
    (acceptCommand p s).decoder = { s.decoder with
      irSt := .rel
      post := if s.cfg.commandButton (packetCmd p) = .noButton then s.wires.posts.ir
        else some (s.cfg.commandButton (packetCmd p)).code } := by
  rw [acceptCommand_eq]
  rfl

/-- The end of a pulse in bit capture. -/
theorem endOfBit_move {s : State} (hp : s.wires.packet = none) (hs : s.irSt = .bitLow) :
    DecoderMove s (ircmdOp (iraddrOp (irbitOp s.risen))).decoder := by
  obtain ⟨hw, -⟩ | ⟨w, -, -, h⟩ | ⟨w, b, -, -, hl, h⟩ | ⟨w, b, -, -, -, -, h⟩ | ⟨w, b, -, -, -, -, h⟩ :=
    endOfBit_cases (s := s.risen) hp hs (by simp [State.risen])
  · cases hw
  · rw [h]
    exact .resync (.inr hs)
  · rw [h]
    exact .nextBit hs hl
  · rw [h]
    exact .resync (.inr hs)
  · rw [h, acceptCommand_decoder]
    split
    · exact .ignore hs
    · exact .accept hs _

/-- Everything a step of the decoder can do. -/
theorem irStep_move {s : State} (hp : s.wires.packet = none) (he : EdgeSelectFits s) :
    DecoderMove s (irStep s).decoder := by
  obtain ⟨low, high⟩ := he
  by_cases hd : CaptureDue s
  · rw [irStep_captured hd]
    obtain ⟨-, -, ⟨hi, hf⟩ | ⟨hi, hr⟩⟩ := id hd
    · rw [show widthOp (captureOp s) = s.fallen from captured_falling hd hi hf]
      obtain ⟨idle, syncGap, bitGap, rel⟩ := fallen_move hd hf hi
      cases hs : s.irSt
      case idle => exact idle hs
      case syncGap => exact syncGap hs
      case bitGap => exact bitGap hs
      case rel => exact rel hs
      all_goals simp [hs, hi] at low
    · rw [show widthOp (captureOp s) = s.risen from captured_rising hd hi hr]
      cases hs : s.irSt
      case syncLow => exact irsyncOp_move hs
      case bitLow => exact endOfBit_move hp hs
      case rel =>
        have restarted : irrelOp s.risen = { s.risen with irCnt := 0 } := if_pos ⟨hs, rfl⟩
        simp only [restarted]
        exact .restart hs
      all_goals simp [hs, hi] at high
  · rw [irStep_quiet hd]
    exact irtimeoutOp_move hd

/-! ### What every step of the decoder keeps -/

/-- A falling edge leaves the decoder in a low pulse or in the release wait. -/
theorem IrState.afterFall_cases (st : IrState) :
    st.afterFall = .syncLow ∨ st.afterFall = .bitLow ∨ st.afterFall = .rel := by
  cases st <;> decide

/-- 10_state.md rule R48 item 2 after a step of the decoder. -/
theorem DecoderMove.edgeSelectFits {s : State} {r : DecoderRegs} (m : DecoderMove s r) (he : EdgeSelectFits s) :
    (r.irSt = .syncLow ∨ r.irSt = .bitLow → r.ices = true)
      ∧ (r.irSt = .idle ∨ r.irSt = .syncGap ∨ r.irSt = .bitGap → r.ices = false) := by
  cases m with
  | rest => exact he
  | count => exact he
  | fall =>
    refine ⟨fun _ => rfl, fun h => ?_⟩
    rcases s.irSt.afterFall_cases with h' | h' | h' <;> simp [h'] at h
  | restart hs => exact ⟨fun h => by simp [State.decoder, State.risen, hs] at h, fun _ => rfl⟩
  | _ => exact ⟨by simp, fun _ => rfl⟩

/-- 10_state.md rule R48 item 5 after a step of the decoder. -/
theorem DecoderMove.irCountBounded {s : State} {r : DecoderRegs} (m : DecoderMove s r) (ht : 1 ≤ s.cfg.tTimeout)
    (hb : IrCountBounded s) : r.irCnt ≤ s.cfg.tTimeout ∧ (r.irSt ≠ .idle → r.irCnt < s.cfg.tTimeout) := by
  obtain ⟨hle, hlt⟩ := hb
  cases m with
  | rest => exact ⟨hle, hlt⟩
  | count _ _ hc => exact ⟨hc.le, fun _ => hc⟩
  | timeout _ hs => exact ⟨hlt hs, fun h => absurd rfl h⟩
  | _ => exact ⟨Nat.zero_le _, fun _ => ht⟩

/-- 10_state.md rule R48 item 6 after a step of the decoder: the last bit of a packet does not count on. -/
theorem DecoderMove.bitIndexInPacket {s : State} {r : DecoderRegs} (m : DecoderMove s r) (hn : s.cfg.nBits = 12)
    (hb : BitIndexInPacket s) : r.bitIdx.toNat ≤ 11 := by
  cases m with
  | lead => exact Nat.zero_le _
  | nextBit _ hl =>
    have notLast : s.bitIdx.toNat + 1 ≠ 12 := by simpa [lastBit, hn] using hl
    show (s.bitIdx + 1#4).toNat ≤ 11
    rw [BitVec.toNat_add]
    simp only [BitVec.toNat_ofNat]
    omega
  | _ => exact hb

/-- `ICES` is set after a step of the decoder in the tick of a falling edge, or it was set and no edge was captured. -/
theorem DecoderMove.ices_set {s : State} {r : DecoderRegs} (m : DecoderMove s r) (hi : r.ices = true) :
    s.wires.fall = true ∨ (s.ices = true ∧ ¬ CaptureDue s) := by
  cases m with
  | rest hd => exact .inr ⟨hi, hd⟩
  | count hd => exact .inr ⟨hi, hd⟩
  | fall _ hf => exact .inl hf
  | _ => cases hi

/-- A step of the decoder captures the counter or leaves the captured values as they were. -/
theorem DecoderMove.captured_lt {s : State} {r : DecoderRegs} (m : DecoderMove s r) {n : Nat} (ht : s.tcnt < n)
    (hi : s.icr < n) (hc : s.capStart < n) : r.icr < n ∧ r.capStart < n := by
  cases m with
  | rest => exact ⟨hi, hc⟩
  | count => exact ⟨hi, hc⟩
  | timeout => exact ⟨hi, hc⟩
  | fall => exact ⟨ht, ht⟩
  | _ => exact ⟨ht, hc⟩

/-- What a step of the decoder posts is the code of a command's button. -/
theorem DecoderMove.post_cases {s : State} {r : DecoderRegs} (m : DecoderMove s r) :
    r.post = s.wires.posts.ir ∨ ∃ cmd, r.post = some (s.cfg.commandButton cmd).code := by
  cases m with
  | accept _ cmd => exact .inr ⟨cmd, rfl⟩
  | _ => exact .inl rfl

/-! ### What a sample of the knobs keeps -/

/-- What the invariant says of one knob. -/
abbrev KnobFits (c : Config) (e : EncState) : Prop := KnobAligned e ∧ UnseededIsZero e ∧ BelowDetent c e

@[simp] theorem knobAfter_initialized (c : Config) (old new : Quadrant) (e : EncState) :
    (knobAfter c old new e).initialized = true := by
  unfold knobAfter
  split <;> simp_all

/-- A sample keeps a knob's count below a detent, and at 0 in quadrant 0 (42_quadrature.md rule R169). -/
theorem knobAfter_fits {c : Config} {old new : Quadrant} {e : EncState} (hb : c.blipsPerDetent ≤ 4)
    (h : KnobFits c e) : KnobFits c (knobAfter c old new e) := by
  obtain ⟨⟨low, high, zero⟩, unseeded, below⟩ := h
  by_cases hi : e.initialized = true
  · obtain ⟨hl, hh⟩ := storedBlips_range (old := old) (new := new) below.1 below.2
    simp only [knobAfter, hi, if_true]
    refine ⟨⟨by dsimp only; omega, by dsimp only; omega, ?_⟩, by simp, hl, hh⟩
    rintro ⟨-, hq⟩
    dsimp only at hq
    simp [hq]
  · have h0 : e.blips = 0 := unseeded (by simpa using hi)
    rw [knobAfter, if_neg hi]
    exact ⟨⟨low, high, fun _ => h0⟩, fun _ => h0, below⟩

/-! ### What the mailbox can hold -/

/-- 10_state.md rule R48 item 10, for a value. -/
abbrev CodeLegal (c : Config) (v : Byte) : Prop :=
  v.toNat ≤ 0x3F ∨ ∃ cmd : BitVec 7, (c.commandButton cmd).code = v

/-- What a port posts may stand in the mailbox. -/
def PortLegal (c : Config) (p : Option Byte) : Prop := ∀ v, p = some v → CodeLegal c v

theorem portLegal_none (c : Config) : PortLegal c none := fun _ h => nomatch h

theorem portLegal_some {c : Config} {v : Byte} (h : CodeLegal c v) : PortLegal c (some v) := by
  rintro _ ⟨⟩
  exact h

/-- A post of a legal value leaves a legal value. -/
theorem applyPost_legal {c : Config} {e : Byte} {p : Option Byte} (he : CodeLegal c e) (hp : PortLegal c p) :
    CodeLegal c (applyPost e p) := by
  cases p with
  | none => exact he
  | some v => exact hp v rfl

/-- A latched mask is six bits. -/
theorem maskCode_legal (c : Config) (m : LineMask) : CodeLegal c (maskCode m) := by
  refine .inl ?_
  rw [maskCode, BitVec.toNat_setWidth]
  have := m.isLt
  omega

/-- The encoders' codes are among the masks. -/
theorem knobPost_legal (c : Config) (k : Knob) (old new : Quadrant) (e : EncState) :
    PortLegal c (knobPost c k old new e) := by
  intro v hv
  refine .inl ?_
  obtain rfl | rfl := knobPost_cases hv <;> cases k <;> decide

/-! ### What the host operation keeps -/

/-- Everything a step can do: a reset tick, or phases P1 and P2 and then the end of the tick. -/
theorem step_hostDone {s t : State} (h : step s = .next t) :
    s.cfg.valid = true
      ∧ ((s.takeInputs.1.rst = true ∧ t = s.takeInputs.2.resetTick)
        ∨ (s.takeInputs.1.rst = false ∧ ∃ u, HostDone s s.takeInputs.1 u ∧ t = finishTick u)) := by
  obtain ⟨hv, reset | ⟨hr, u, hu, ht⟩⟩ := step_cases h
  · exact ⟨hv, .inl reset⟩
  · exact ⟨hv, .inr ⟨hr, u, (hostDone s.takeInputs_frame hu).1, ht⟩⟩

section
variable {s u : State} {i : Inputs}

/-- The enables are as they were, or both set by `INIT` (10_state.md rules R25, R32). -/
theorem HostDone.enables (h : HostDone s i u) :
    (i.hostOp = 0b001#3 ∧ u.icie = true ∧ u.pcie = true)
      ∨ (i.hostOp ≠ 0b001#3 ∧ u.icie = s.icie ∧ u.pcie = s.pcie) := by
  obtain ⟨hop, -, hi, hp, -⟩ | ⟨hop, -, hi, hp, -⟩ := h.mode
  · exact .inl ⟨hop, hi, hp⟩
  · exact .inr ⟨hop, hi, hp⟩

theorem HostDone.enablesAgree (h : HostDone s i u) (hI : EnablesAgree s) : EnablesAgree u := by
  obtain ⟨-, hi, hp⟩ | ⟨-, hi, hp⟩ := h.enables
  · exact hi.trans hp.symm
  · rw [EnablesAgree, hi, hp]
    exact hI

theorem HostDone.edgeSelectFits (h : HostDone s i u) (hI : EdgeSelectFits s) : EdgeSelectFits u := by
  obtain ⟨-, -, -, -, he, hs, -⟩ | ⟨-, -, -, -, he, hs, -⟩ := h.mode
  · exact ⟨by simp [hs], fun _ => he⟩
  · rw [EdgeSelectFits, he, hs]
    exact hI

theorem HostDone.irCountBounded (h : HostDone s i u) (hI : IrCountBounded s) : IrCountBounded u := by
  rw [IrCountBounded, h.irCnt, h.cfg]
  obtain ⟨-, -, -, -, -, hs, -⟩ | ⟨-, -, -, -, -, hs, -⟩ := h.mode
  · exact ⟨hI.1, fun hne => absurd hs hne⟩
  · rw [hs]
    exact hI

theorem HostDone.candidateIsPressed (h : HostDone s i u) (hI : CandidateIsPressed s) : CandidateIsPressed u := by
  rw [CandidateIsPressed, h.dbCand]
  obtain ⟨-, -, -, -, -, -, hs, -⟩ | ⟨-, -, -, -, -, -, hs, -⟩ := h.mode
  · simp [hs]
  · rw [hs]
    exact hI

/-- A tick with the decoder disabled was not `INIT`, so both engines were quiet before it and are in it. -/
theorem HostDone.disabledIsQuiet (h : HostDone s i u) (hI : DisabledIsQuiet s) : DisabledIsQuiet u := by
  intro hi
  obtain ⟨-, -, hi', -⟩ | ⟨-, -, hi', -, -, hs, hp, hf, hevt⟩ := h.mode
  · rw [hi] at hi'
    cases hi'
  · obtain ⟨idle, pchIdle, noFlag, noEvent⟩ := hI (hi'.symm.trans hi)
    refine ⟨hs.trans idle, hp.trans pchIdle, hf.trans noFlag, ?_⟩
    obtain ⟨-, he⟩ | ⟨-, he⟩ := hevt
    · exact he
    · exact he.trans noEvent

/-- The mailbox is as it was, or cleared by `POP`. -/
theorem HostDone.evtLegal (h : HostDone s i u) (hI : EvtLegal s) : EvtLegal u := by
  rw [EvtLegal, h.cfg]
  obtain ⟨-, -, -, -, -, -, -, -, he⟩ | ⟨-, -, -, -, -, -, -, -, ⟨-, he⟩ | ⟨-, he⟩⟩ := h.mode
  · rw [he]
    exact hI
  · exact .inl (by simp [he])
  · rw [he]
    exact hI

/-- With the rising edge armed the line was low, so a line that reads high in this tick is a capture. -/
theorem HostDone.low_of_armed (h : HostDone s i u) (hI : RisingArmedWhileLow s) (he : u.ices = true)
    (hi : u.icie = true) (hd : ¬ CaptureDue u) : i.irIn = false := by
  obtain ⟨-, -, -, -, he', -⟩ | ⟨-, hh, hi', -, he', -⟩ := h.mode
  · rw [he] at he'
    cases he'
  · have low : s.irPrev = false := hI ⟨he'.symm.trans he, hi'.symm.trans hi⟩
    cases hin : i.irIn with
    | false => rfl
    | true => exact absurd ⟨hi, hh, .inr ⟨he, by rw [h.rise, low, hin]; rfl⟩⟩ hd

/-- The decoder's registers at the end of phase P3 are those its step leaves. -/
theorem HostDone.decoderMove (h : HostDone s i u) (hI : EdgeSelectFits s) :
    DecoderMove u (enginesDone u).decoder := by
  rw [enginesDone, pchStep_decoder]
  exact irStep_move h.packet (h.edgeSelectFits hI)
end

/-! ### What the end of a tick keeps -/

/-- The knobs are as they were, or both were sampled (42_quadrature.md rule R161). -/
theorem finishTick_knobs (u : State) :
    ((finishTick u).encA = u.encA ∧ (finishTick u).encB = u.encB)
      ∨ ∃ a b, (finishTick u).encA = knobAfter u.cfg u.encA.quadrant a u.encA
        ∧ (finishTick u).encB = knobAfter u.cfg u.encB.quadrant b u.encB := by
  have irKeeps := irStep_frame u
  have cfg := irKeeps.keeps State.cfg fun _ _ => rfl
  have encA := irKeeps.keeps State.encA fun _ _ => rfl
  have encB := irKeeps.keeps State.encB fun _ _ => rfl
  rw [finishTick_encA, finishTick_encB, ← cfg, ← encA, ← encB]
  obtain ⟨hA, hB, -, -⟩ | ⟨-, -, -, hA, hB, -, -⟩ := pchStep_knobs (irStep u)
  · exact .inl ⟨hA, hB⟩
  · exact .inr ⟨_, _, hA, hB⟩

/-- A latched mask stays the mask of a press. -/
theorem finishTick_candidateIsPressed {u : State} (hI : CandidateIsPressed u) : CandidateIsPressed (finishTick u) := by
  intro hs
  obtain ⟨hc, hm⟩ | ⟨hc, hs'⟩ := (pchStep_db (irStep u)).2 hs
  · exact fun h0 => hm (hc.symm.trans h0)
  · rw [irStep_pchSt] at hs'
    have same : (finishTick u).dbCand = u.dbCand := hc.trans ((irStep_frame u).keeps State.dbCand fun _ _ => rfl)
    rw [same]
    exact hI hs'

/-- A sample posts one of the knob's codes on its port, or nothing. -/
theorem portAfter_knobPost_legal (c : Config) (k : Knob) (old new : Quadrant) (e : EncState) :
    PortLegal c (portAfter none (knobPost c k old new e)) := by
  have legal := knobPost_legal c k old new e
  cases hp : knobPost c k old new e with
  | none => exact portLegal_none c
  | some v => exact portLegal_some (legal v hp)

/-- On ports that were idle, the sequencer's units post masks and the knobs' codes. -/
theorem pchStep_portsLegal {s : State} (hdb : s.wires.posts.db = none) (hA : s.wires.posts.A = none)
    (hB : s.wires.posts.B = none) :
    PortLegal s.cfg (pchStep s).wires.posts.db ∧ PortLegal s.cfg (pchStep s).wires.posts.A
      ∧ PortLegal s.cfg (pchStep s).wires.posts.B := by
  constructor
  · obtain h | ⟨-, -, h⟩ := (pchStep_db s).1
    · rw [h, hdb]
      exact portLegal_none _
    · rw [h]
      exact portLegal_some (maskCode_legal _ _)
  · obtain ⟨-, -, hA', hB'⟩ | ⟨-, -, -, -, -, hA', hB'⟩ := pchStep_knobs s
    · rw [hA', hB', hA, hB]
      exact ⟨portLegal_none _, portLegal_none _⟩
    · rw [hA', hB', hA, hB]
      exact ⟨portAfter_knobPost_legal _ _ _ _ _, portAfter_knobPost_legal _ _ _ _ _⟩

/-- A legal mailbox value stays legal: whatever is posted is a mask, a knob's code or the code of a command's button
(10_state.md rule R48 item 10). -/
theorem finishTick_evtLegal {u : State} (hn : u.wires.posts = ⟨none, none, none, none⟩)
    (m : DecoderMove u (enginesDone u).decoder) (hI : EvtLegal u) : EvtLegal (finishTick u) := by
  have posts : ∀ f : Posts → Option Byte, (∀ p q : Posts, f { p with ir := q.ir } = f p) →
      f (irStep u).wires.posts = f ⟨none, none, none, none⟩ := fun f hf => by
    rw [← hn]
    exact (irStep_frame u).keeps (fun t => f t.wires.posts) fun s t => hf _ _
  have cfg : (irStep u).cfg = u.cfg := (irStep_frame u).keeps State.cfg fun _ _ => rfl
  have evt : (enginesDone u).evt = u.evt := enginesDone_keeps u State.evt (fun _ _ => rfl) (fun _ _ => rfl)
  obtain ⟨db, A, B⟩ := pchStep_portsLegal (posts Posts.db fun _ _ => rfl) (posts Posts.A fun _ _ => rfl)
    (posts Posts.B fun _ _ => rfl)
  rw [cfg] at db A B
  have ir : PortLegal u.cfg (enginesDone u).wires.posts.ir := by
    obtain h | ⟨cmd, h⟩ := m.post_cases
    · rw [show (enginesDone u).wires.posts.ir = u.wires.posts.ir from h, hn]
      exact portLegal_none _
    · rw [show (enginesDone u).wires.posts.ir = _ from h]
      exact portLegal_some (.inr ⟨cmd, rfl⟩)
  rw [EvtLegal, finishTick_cfg, finishTick_eq]
  dsimp only
  rw [evt]
  exact applyPost_legal (applyPost_legal (applyPost_legal (applyPost_legal hI db) A) B) ir

/-! ### The invariant -/

/-- The reset values meet the invariant under every valid configuration. -/
theorem invariant_reset {c : Config} (hv : c.valid = true) (ins : List Inputs) (n : Nat) :
    Invariant { State.reset with cfg := c, inputs := ins, drawn := n } := by
  obtain ⟨-, -, -, -, -, -, -, -, -, -, -, -, -, -, -, -, -, -, -, -, hb, -⟩ := (Config.valid_iff c).1 hv
  have pos : 0 < 2 ^ c.w := Nat.two_pow_pos c.w
  have fits : KnobFits c ⟨0#2, 0, false⟩ :=
    ⟨⟨by decide, by decide, fun _ => rfl⟩, fun _ => rfl, by dsimp only; omega, by dsimp only; omega⟩
  obtain ⟨aligned, unseeded, below⟩ := fits
  refine ⟨hv, ⟨rfl, ?_, ?_, ?_, ?_, ?_, ?_, ⟨aligned, aligned⟩, rfl, ?_⟩, ⟨unseeded, unseeded⟩,
    ⟨below, below⟩, pos, pos, pos⟩
  · exact ⟨by simp [State.reset], fun _ => rfl⟩
  · exact fun h => nomatch h.1
  · exact fun _ => ⟨rfl, rfl, rfl, rfl⟩
  · exact ⟨Nat.zero_le _, fun h => absurd rfl h⟩
  · exact Nat.zero_le _
  · simp [CandidateIsPressed, State.reset]
  · exact .inl (Nat.zero_le _)

section
variable {s u : State} {i : Inputs}

/-- 10_state.md rule R48 item 3 at the end of a tick: a captured falling edge reads low, and an armed line that is not
captured stays low. -/
theorem HostDone.risingArmed_finishTick (h : HostDone s i u) (edge : EdgeSelectFits s)
    (armed : RisingArmedWhileLow s) : RisingArmedWhileLow (finishTick u) := by
  rintro ⟨hices, hicie⟩
  rw [finishTick_icie] at hicie
  rw [finishTick_irPrev, h.irPrev]
  obtain hfall | ⟨hices', hd⟩ := (h.decoderMove edge).ices_set hices
  · rw [h.fall] at hfall
    simpa using (Bool.and_eq_true_iff.1 hfall).2
  · exact h.low_of_armed armed hices' hicie hd

/-- 10_state.md rule R48 item 4 at the end of a tick. -/
theorem HostDone.disabledIsQuiet_finishTick (h : HostDone s i u) (agree : EnablesAgree s)
    (quiet : DisabledIsQuiet s) : DisabledIsQuiet (finishTick u) := by
  intro hicie
  rw [finishTick_icie] at hicie
  obtain ⟨idle, pchIdle, noFlag, noEvent⟩ := h.disabledIsQuiet quiet hicie
  have disabled := finishTick_disabled hicie ((h.enablesAgree agree).symm.trans hicie) noFlag h.posts
  rwa [idle, pchIdle, noEvent] at disabled

/-- What the invariant says of the knobs, at the end of a tick: they are kept, or both are sampled. -/
theorem finishTick_knobFits (hb : u.cfg.blipsPerDetent ≤ 4) (fitsA : KnobFits u.cfg u.encA)
    (fitsB : KnobFits u.cfg u.encB) (together : KnobsSeededTogether u) :
    KnobFits u.cfg (finishTick u).encA ∧ KnobFits u.cfg (finishTick u).encB
      ∧ KnobsSeededTogether (finishTick u) := by
  obtain ⟨hA, hB⟩ | ⟨a, b, hA, hB⟩ := finishTick_knobs u <;> rw [KnobsSeededTogether, hA, hB]
  · exact ⟨fitsA, fitsB, together⟩
  · exact ⟨knobAfter_fits hb fitsA, knobAfter_fits hb fitsB, by simp⟩

/-- The end of a tick keeps the invariant. -/
theorem HostDone.invariant_finishTick (h : HostDone s i u) (hI : Invariant s) : Invariant (finishTick u) := by
  obtain ⟨hv, ⟨agree, edge, armed, quiet, irCnt, bitIdx, cand, ⟨alignedA, alignedB⟩, together, evt⟩,
    ⟨unseededA, unseededB⟩, ⟨belowA, belowB⟩, tcnt, icr, capStart⟩ := hI
  rw [← h.cfg] at hv tcnt icr capStart belowA belowB
  rw [← h.encA] at alignedA unseededA belowA
  rw [← h.encB] at alignedB unseededB belowB
  rw [KnobsSeededTogether, ← h.encA, ← h.encB] at together
  obtain ⟨-, -, -, timeout, -, -, -, -, -, -, -, -, -, -, -, -, nBits, -, -, -, -, blips⟩ :=
    (Config.valid_iff u.cfg).1 hv
  have move := h.decoderMove edge
  have captured := move.captured_lt (h.tcnt ▸ tcnt) (h.icr ▸ icr) (h.capStart ▸ capStart)
  obtain ⟨⟨alignedA', unseededA', belowA'⟩, ⟨alignedB', unseededB', belowB'⟩, together'⟩ :=
    finishTick_knobFits blips ⟨alignedA, unseededA, belowA⟩ ⟨alignedB, unseededB, belowB⟩ together
  rw [Invariant, ReachableFacts, EnablesAgree, IrCountBounded, CountersInRange, finishTick_cfg, finishTick_tcnt,
    finishTick_icie, finishTick_pcie]
  exact ⟨hv,
    ⟨h.enablesAgree agree, move.edgeSelectFits (h.edgeSelectFits edge), h.risingArmed_finishTick edge armed,
      h.disabledIsQuiet_finishTick agree quiet, move.irCountBounded timeout (h.irCountBounded irCnt),
      move.bitIndexInPacket nBits (by rwa [BitIndexInPacket, h.bitIdx]),
      finishTick_candidateIsPressed (h.candidateIsPressed cand), ⟨alignedA', alignedB'⟩, together',
      finishTick_evtLegal h.posts move (h.evtLegal evt)⟩,
    ⟨unseededA', unseededB'⟩, ⟨belowA', belowB'⟩, Nat.mod_lt _ (Nat.two_pow_pos _), captured⟩
end

/-- Every step keeps the invariant. -/
theorem step_keeps_invariant {s t : State} (hI : Invariant s) (h : step s = .next t) : Invariant t := by
  obtain ⟨hv, ⟨-, rfl⟩ | ⟨-, u, hu, rfl⟩⟩ := step_hostDone h
  · rw [s.takeInputs_frame]
    exact invariant_reset hv _ _
  · exact hu.invariant_finishTick hI

/-- A run of one step and more that completes: its first step, then the rest. -/
theorem run_succ_next {M : Host.Core} {n : Nat} {s t : M.State} (h : M.run (n + 1) s = .next t) :
    ∃ u, M.step s = .next u ∧ M.run n u = .next t := by
  rw [Host.Core.run] at h
  split at h
  · rename_i u hu
    exact ⟨u, hu, h⟩
  · cases h
  · cases h

/-- What every step keeps holds after every run. -/
theorem run_keeps {P : State → Prop} (keeps : ∀ s t, P s → step s = .next t → P t) (n : Nat) {s t : State} (hs : P s)
    (h : Sys2Proof.core.run n s = .next t) : P t := by
  induction n generalizing s with
  | zero =>
    cases h
    exact hs
  | succ n ih =>
    obtain ⟨u, hu, rest⟩ := run_succ_next h
    exact ih (keeps s u hs hu) rest

/-! ### Earlier outputs and wires -/

/-- The lines of a tick do not depend on earlier outputs and wires, and taking them carries both along. -/
theorem State.takeInputs_tickValues (s : State) (o : Outputs) (w : Wires) :
    State.takeInputs { s with out := o, wires := w }
      = (s.takeInputs.1, { s.takeInputs.2 with out := o, wires := w }) := by
  unfold State.takeInputs
  cases s.inputs <;> rfl

/-- Phase P1 clears the earlier outputs and wires. -/
theorem beginTick_tickValues (i : Inputs) (s : State) (o : Outputs) (w : Wires) :
    beginTick i { s with out := o, wires := w } = beginTick i s := rfl

/-- A step does not read the outputs and wires of an earlier tick. -/
theorem step_tickValues (s : State) (o : Outputs) (w : Wires) : step { s with out := o, wires := w } = step s := by
  unfold step
  rw [State.takeInputs_tickValues]
  dsimp only
  rw [beginTick_tickValues]
  rfl

/-- A step ends with idle wires and the parameters as they were. -/
theorem step_idle {s t : State} (h : step s = .next t) : t.wires = Wires.idle ∧ t.cfg = s.cfg := by
  obtain ⟨-, ⟨-, rfl⟩ | ⟨-, u, hu, rfl⟩⟩ := step_hostDone h
  · rw [s.takeInputs_frame]
    exact ⟨rfl, rfl⟩
  · exact ⟨rfl, (finishTick_cfg u).trans hu.cfg⟩

/-- The end of a tick clears no knob's `initialized` bit. -/
theorem finishTick_seeded (u : State) :
    (u.encA.initialized = true → (finishTick u).encA.initialized = true)
      ∧ (u.encB.initialized = true → (finishTick u).encB.initialized = true) := by
  obtain ⟨hA, hB⟩ | ⟨a, b, hA, hB⟩ := finishTick_knobs u <;> rw [hA, hB]
  · exact ⟨id, id⟩
  · simp

/-! ### The obligations -/

/-- Settles O57: the host operation keeps each item, then the end of the tick does. -/
theorem stepKeepsTheInvariant : Obligations.StepKeepsTheInvariant :=
  fun _ _ => step_keeps_invariant

/-- Settles O58, by induction on the length of the run: the invariant holds at reset and every step keeps it. -/
theorem reachableStatesKeepTheTenFacts : Obligations.ReachableStatesKeepTheTenFacts := by
  intro c ins n t hv h
  obtain ⟨-, facts, -⟩ := run_keeps stepKeepsTheInvariant n (invariant_reset hv ins 0) h
  exact facts

/-- Settles O10: phase P1 overwrites every output and wire, and the tick's end clears the wires. -/
theorem tickValuesDoNotSurvive : Obligations.TickValuesDoNotSurvive :=
  fun s o w => ⟨step_tickValues s o w, fun _ => step_idle⟩

/-- Settles O59: outside reset only `INIT` writes the enables, and it sets them; a sample sets the `initialized` bits. -/
theorem enablesAndSeedsFallOnlyAtReset : Obligations.EnablesAndSeedsFallOnlyAtReset := by
  intro s t i rest hi hr h
  obtain ⟨-, ⟨hr', -⟩ | ⟨-, u, hu, rfl⟩⟩ := step_hostDone h
  all_goals rw [State.takeInputs_cons hi] at *
  · rw [hr] at hr'
    cases hr'
  · obtain ⟨seedA, seedB⟩ := finishTick_seeded u
    rw [hu.encA] at seedA
    rw [hu.encB] at seedB
    rw [finishTick_icie, finishTick_pcie]
    obtain ⟨hop, hicie, hpcie⟩ | ⟨-, hicie, hpcie⟩ := hu.enables
    · exact ⟨fun _ => hicie, fun _ => hpcie, seedA, seedB, fun hne => absurd hop hne⟩
    · rw [hicie, hpcie]
      exact ⟨id, id, seedA, seedB, fun _ => ⟨rfl, rfl⟩⟩

/-- Settles O56: the reset values under the reference configuration; no pulse is being measured. -/
theorem resetMeetsTheInvariant : Obligations.ResetMeetsTheInvariant :=
  ⟨invariant_reset (c := Config.reference) (by decide) [] 0, by simp [WidthIsExact, State.reset]⟩

end Sys2Proof.Machine

/-! The statement of 20_memory.md about the bit order (rule R62): what the data symbols of a frame assemble.
First the packet as far as it is received, then one symbol, then the symbols that are still to come. -/

namespace Sys2Proof.Machine

open Sys2Proof

/-! ### The packet as far as it is received -/

/-- What stands in `pkt` once the first `n` bits of `p` are received: those bits, and 0 above them. -/
def receivedPart (p : Packet) (n : Nat) : Packet := (p.setWidth n).setWidth 12

@[simp] theorem receivedPart_zero (p : Packet) : receivedPart p 0 = 0x000#12 := by
  ext j
  simp [receivedPart]

@[simp] theorem receivedPart_all (p : Packet) : receivedPart p 12 = p := by
  simp [receivedPart]

/-- Storing bit `n` of the packet at position `n` (43_ir_decoder.md rule R186) receives one bit more. -/
theorem storedPacket_receivedPart (p : Packet) (i : BitVec 4) :
    storedPacket (receivedPart p i.toNat) i (p.getLsbD i.toNat) = receivedPart p (i.toNat + 1) := by
  ext j hj
  rcases Nat.lt_trichotomy j i.toNat with below | rfl | above
  · simp [storedPacket, receivedPart, below, Nat.lt_succ_of_lt below]
  · simp [storedPacket, receivedPart, hj]
  · have distance : j - i.toNat ≠ 0 := Nat.sub_ne_zero_of_lt above
    simp [storedPacket, receivedPart, distance, Nat.not_lt_of_gt above, Nat.not_lt.2 above]

/-! ### One data symbol -/

/-- A data symbol, received in `IR_BIT_LOW`, stores its bit. -/
theorem receiveBits_cons (b : Bool) (rest : List Bool) (s : State) :
    receiveBits (b :: rest) s = receiveBits rest (storeBit b { s with irSt := .bitLow }) := by
  cases b <;> rfl

theorem lastBit_iff (c : Config) (i : BitVec 4) : lastBit c i = true ↔ i.toNat + 1 = c.nBits := by
  simp [lastBit]

/-- The last bit completes the packet. -/
theorem storeBit_last {s : State} (b : Bool) (h : s.bitIdx.toNat + 1 = s.cfg.nBits) :
    storeBit b s = { s with
      pkt := storedPacket s.pkt s.bitIdx b
      wires := { s.wires with packet := some (storedPacket s.pkt s.bitIdx b) } } := by
  obtain ⟨-, stored⟩ | ⟨more, -⟩ := storeBit_eq b s
  · exact stored
  · simp [(lastBit_iff s.cfg s.bitIdx).2 h] at more

/-- Every earlier bit goes on to the next gap. -/
theorem storeBit_notLast {s : State} (b : Bool) (h : s.bitIdx.toNat + 1 ≠ s.cfg.nBits) :
    storeBit b s = { s with
      pkt := storedPacket s.pkt s.bitIdx b, bitIdx := s.bitIdx + 1#4, irSt := .bitGap } := by
  obtain ⟨last, -⟩ | ⟨-, stored⟩ := storeBit_eq b s
  · exact absurd ((lastBit_iff s.cfg s.bitIdx).1 last) h
  · exact stored

/-! ### The symbols still to come -/

/-- The bits of `p` from `bit_idx` on complete `p`, once those below `bit_idx` stand in `pkt`; `k` counts the bits
before the last. -/
theorem receiveBits_completes (p : Packet) (k : Nat) {s : State} (hn : s.cfg.nBits = 12)
    (hi : s.bitIdx.toNat + k = 11) (hp : s.pkt = receivedPart p s.bitIdx.toNat) :
    receiveBits ((List.range' s.bitIdx.toNat (k + 1)).map p.getLsbD) s
      = .next { s with bitIdx := 11#4, pkt := p, irSt := .bitLow, wires := { s.wires with packet := some p } } := by
  induction k generalizing s with
  | zero =>
    have last : s.bitIdx = 11#4 := BitVec.eq_of_toNat_eq hi
    have complete : storedPacket s.pkt s.bitIdx (p.getLsbD s.bitIdx.toNat) = p := by
      rw [hp, storedPacket_receivedPart, last]
      exact receivedPart_all p
    rw [List.range'_succ, List.map_cons, receiveBits_cons, storeBit_last _ (by dsimp only; omega)]
    dsimp only
    rw [complete, ← last]
    rfl
  | succ k ih =>
    have advanced : (s.bitIdx + 1#4).toNat = s.bitIdx.toNat + 1 := by bv_omega
    have stored : storedPacket s.pkt s.bitIdx (p.getLsbD s.bitIdx.toNat) = receivedPart p (s.bitIdx + 1#4).toNat := by
      rw [hp, storedPacket_receivedPart, advanced]
    rw [List.range'_succ, List.map_cons, receiveBits_cons, storeBit_notLast _ (by dsimp only; omega), ← advanced]
    exact ih (s := { s with pkt := _, bitIdx := s.bitIdx + 1#4, irSt := .bitGap }) hn (by dsimp only; omega) stored

/-! ### The obligation -/

/-- Settles O49: before the first symbol no bit is received, and all twelve are to come. -/
theorem frameAssemblesThePacket : Obligations.FrameAssemblesThePacket := by
  intro p s hn hi hp
  have start : s.bitIdx.toNat = 0 := by rw [hi]; rfl
  have completes := receiveBits_completes p 11 hn (by omega) (by rw [hp, start, receivedPart_zero])
  rwa [start, ← List.range_eq_range'] at completes

end Sys2Proof.Machine

/-! The statements of 30_encoding.md: decoding and encoding invert each other (rules R81, R83, R90, R93), the classes of
the pulse widths (rule R85), and the eight listed packets (rule R87). First that every instruction's word decodes to it,
then that every word is some instruction's, then the classes, then what a packet word does. -/

namespace Sys2Proof.Laws.RoundTrip

open Sys2Proof

/-! ### Decoding inverts encoding -/

/-- One case per row of opcode_table.json, in the order of its formats. -/
theorem statement_all : (i : Instr) → Statement i
  -- format H
  | .nop => nop | .init => init | .pop => pop | .peek => peek | .isany => isany
  | .reserved5 => reserved5 | .reserved6 => reserved6 | .reserved7 => reserved7
  -- format Q
  | .qSame00 k => qSame00 k | .qFwd01 k => qFwd01 k | .qSkip02 k => qSkip02 k | .qRev03 k => qRev03 k
  | .qRev10 k => qRev10 k | .qSame11 k => qSame11 k | .qFwd12 k => qFwd12 k | .qSkip13 k => qSkip13 k
  | .qSkip20 k => qSkip20 k | .qRev21 k => qRev21 k | .qSame22 k => qSame22 k | .qFwd23 k => qFwd23 k
  | .qFwd30 k => qFwd30 k | .qSkip31 k => qSkip31 k | .qRev32 k => qRev32 k | .qSame33 k => qSame33 k
  -- format P
  | .pkt addr cmd => pkt addr cmd | .pktVolumeUp => pktVolumeUp | .pktVolumeDown => pktVolumeDown
  | .pktEnter => pktEnter | .pktBack => pktBack | .pktDirUp => pktDirUp | .pktDirDown => pktDirDown
  | .pktDirLeft => pktDirLeft | .pktDirRight => pktDirRight
  -- formats S and U, which have no word
  | .symLead => symLead | .symNotLead => symNotLead | .symZero => symZero | .symOne => symOne | .symBad => symBad
  | .count => count | .edge => edge | .capture => capture | .width => width
  | .pcdetect => pcdetect | .pcstart => pcstart | .dbstart => dbstart | .dbqual => dbqual | .dbrel => dbrel
  | .dbabort => dbabort | .ensettle => ensettle | .ensample => ensample | .qstep k => qstep k | .enabort => enabort
  | .irarm => irarm | .irsync => irsync | .irbit => irbit | .iraddr => iraddr | .ircmd => ircmd | .irrel => irrel
  | .irtimeout => irtimeout | .post => post

end Sys2Proof.Laws.RoundTrip

namespace Sys2Proof

/-- Settles O2, by cases on the instruction. -/
theorem decodeInvertsEncode : Obligations.DecodeInvertsEncode :=
  fun i e hw he => Laws.RoundTrip.statement_all i hw e he

/-! ### Every word is the word of an instruction -/

/-- A packet is assembled from its two fields (30_encoding.md rule R83). -/
theorem packetOf_packetAddr_packetCmd (p : Packet) : packetOf (packetAddr p) (packetCmd p) = p :=
  (BitVec.extractLsb'_append_extractLsb'_eq_extractLsb' rfl).trans BitVec.extractLsb'_eq_self

theorem encode_decodeHost (w : HostWord) : (decodeHost w).wf = true ∧ encode (decodeHost w) = some (.host w) := by
  revert w
  decide

theorem encode_decodeQuad (k : Knob) (w : QuadWord) :
    (decodeQuad k w).wf = true ∧ encode (decodeQuad k w) = some (.quad k w) := by
  revert w
  cases k <;> decide

/-- The packets of `namedPackets` are the words of the eight rows that the table lists by value. -/
theorem encode_decodePacket_named {row : BitVec 5 × BitVec 7} (h : row ∈ namedPackets) :
    (decodePacket (packetOf row.1 row.2)).wf = true
      ∧ encode (decodePacket (packetOf row.1 row.2)) = some (.packet (packetOf row.1 row.2)) := by
  fin_cases h <;> exact ⟨rfl, rfl⟩

theorem Instr.pkt_wf_iff (addr : BitVec 5) (cmd : BitVec 7) :
    (Instr.pkt addr cmd).wf = true ↔ (addr, cmd) ∉ namedPackets := by
  simp [Instr.wf]

/-- A packet that is not listed is the word of the generic row, so by `RoundTrip.pkt` it decodes to that row. -/
theorem encode_decodePacket_packetOf (addr : BitVec 5) (cmd : BitVec 7) :
    (decodePacket (packetOf addr cmd)).wf = true
      ∧ encode (decodePacket (packetOf addr cmd)) = some (.packet (packetOf addr cmd)) := by
  by_cases named : (addr, cmd) ∈ namedPackets
  · exact encode_decodePacket_named (row := (addr, cmd)) named
  · have generic := (Instr.pkt_wf_iff addr cmd).2 named
    have decoded : decodePacket (packetOf addr cmd) = .pkt addr cmd := Laws.RoundTrip.pkt addr cmd generic _ rfl
    rw [decoded]
    exact ⟨generic, rfl⟩

theorem encode_decodePacket (w : Packet) :
    (decodePacket w).wf = true ∧ encode (decodePacket w) = some (.packet w) := by
  have fields := encode_decodePacket_packetOf (packetAddr w) (packetCmd w)
  rwa [packetOf_packetAddr_packetCmd] at fields

/-- Settles O3, by cases on the format that carries the word. -/
theorem encodeInvertsDecode : Obligations.EncodeInvertsDecode
  | .host w => encode_decodeHost w
  | .quad k w => encode_decodeQuad k w
  | .packet w => encode_decodePacket w

/-- Settles O1, by evaluating the decoder on each word. -/
theorem tableWordsDecode : Obligations.TableWordsDecode := by
  unfold Obligations.TableWordsDecode
  decide

/-! ### The classes of pulse widths -/

theorem decodeSyncPulse_eq_symLead_iff (c : Config) (w : Nat) :
    decodeSyncPulse c w = .symLead ↔ c.tLeadMin ≤ w ∧ w ≤ c.tLeadMax := by
  unfold decodeSyncPulse
  split_ifs with lead <;> simp [lead]

theorem decodeSyncPulse_eq_symNotLead_iff (c : Config) (w : Nat) :
    decodeSyncPulse c w = .symNotLead ↔ w < c.tLeadMin ∨ c.tLeadMax < w := by
  unfold decodeSyncPulse
  split_ifs with lead
  · simp only [false_iff]
    omega
  · simp only [true_iff]
    omega

theorem decodeDataPulse_eq_symZero_iff (c : Config) (w : Nat) :
    decodeDataPulse c w = .symZero ↔ c.tZeroMin ≤ w ∧ w ≤ c.tZeroMax := by
  unfold decodeDataPulse
  split_ifs with zero one <;> simp [zero]

/-- The `ZERO` range is tested first, so a width of both ranges would be a `ZERO`. -/
theorem decodeDataPulse_eq_symOne_iff {c : Config} (disjoint : c.tZeroMax < c.tOneMin) (w : Nat) :
    decodeDataPulse c w = .symOne ↔ c.tOneMin ≤ w ∧ w ≤ c.tOneMax := by
  unfold decodeDataPulse
  split_ifs with zero one
  · simp only [false_iff]
    omega
  · simp [one]
  · simp [one]

theorem decodeDataPulse_eq_symBad_iff (c : Config) (w : Nat) :
    decodeDataPulse c w = .symBad ↔
      ¬ (c.tZeroMin ≤ w ∧ w ≤ c.tZeroMax) ∧ ¬ (c.tOneMin ≤ w ∧ w ≤ c.tOneMax) := by
  unfold decodeDataPulse
  split_ifs with zero one
  · simp [zero]
  · simp [one]
  · simp [zero, one]

/-- Settles O4: the classes by the parameters, then these at the reference configuration, whose bit ranges are
disjoint. -/
theorem pulseWidthsAreClassified : Obligations.PulseWidthsAreClassified := by
  refine ⟨fun c w => ⟨decodeSyncPulse_eq_symLead_iff c w, decodeSyncPulse_eq_symNotLead_iff c w,
    decodeDataPulse_eq_symZero_iff c w, fun disjoint => decodeDataPulse_eq_symOne_iff disjoint w,
    decodeDataPulse_eq_symBad_iff c w⟩, fun w => ⟨decodeSyncPulse_eq_symLead_iff _ w,
    decodeSyncPulse_eq_symNotLead_iff _ w, decodeDataPulse_eq_symZero_iff _ w,
    decodeDataPulse_eq_symOne_iff (by decide) w, (decodeDataPulse_eq_symBad_iff _ w).trans ?_⟩⟩
  show ¬ (450 ≤ w ∧ w ≤ 749) ∧ ¬ (900 ≤ w ∧ w ≤ 1499) ↔ w < 450 ∨ (750 ≤ w ∧ w ≤ 899) ∨ 1500 ≤ w
  omega

/-! ### The reference command table -/

/-- The reference table gives each of its commands the button of its row, and none of them `None` (rule R87). -/
theorem Config.commandButton_reference {c : Config} (hc : c.cmdMap = Config.reference.cmdMap)
    {row : BitVec 7 × LogicalButton} (h : row ∈ Config.referenceCmdMap) :
    c.commandButton row.1 = row.2 ∧ row.2 ≠ .noButton := by
  have rows : ∀ row ∈ Config.referenceCmdMap,
      Config.reference.commandButton row.1 = row.2 ∧ row.2 ≠ .noButton := by decide
  have same : c.commandButton row.1 = Config.reference.commandButton row.1 := by
    rw [Config.commandButton, hc, Config.commandButton]
  rw [same]
  exact rows row h

end Sys2Proof

namespace Sys2Proof.Machine

open Sys2Proof
open Sys2Proof.Laws.RoundTrip (packetOf_fields)

/-! ### What a packet word does -/

theorem exec_pkt (addr : BitVec 5) (cmd : BitVec 7) (s : State) :
    exec (.pkt addr cmd) s = .next (completePacket (packetOf addr cmd) s) := rfl

/-- Whatever row a packet word belongs to, listed or generic, its effect is `Complete(pk)` of that packet. -/
theorem exec_decodePacket (p : Packet) (s : State) : exec (decodePacket p) s = .next (completePacket p s) := by
  unfold decodePacket
  split_ifs
  case neg => rw [exec_pkt, packetOf_packetAddr_packetCmd]
  all_goals
    subst p
    rfl

/-- A packet of the receiver's address with a recognised command posts its button and goes on to the release wait. -/
theorem completePacket_recognised {s : State} {cmd : BitVec 7} (h : s.cfg.commandButton cmd ≠ .noButton) :
    completePacket (packetOf s.cfg.rxAddr cmd) s = { s with
      irSt := .rel
      wires := { s.wires with posts := { s.wires.posts with ir := some (s.cfg.commandButton cmd).code } } } := by
  obtain ⟨addr_eq, cmd_eq⟩ := packetOf_fields s.cfg.rxAddr cmd
  rw [completePacket, if_pos addr_eq, acceptCommand_eq, cmd_eq, if_neg h]

/-- The row of a command's packet at address 1: for a command of the reference table one of the eight listed rows. -/
def listedRow (cmd : BitVec 7) : Instr := decodePacket (packetOf 1#5 cmd)

theorem exec_listedRow (cmd : BitVec 7) (s : State) :
    exec (listedRow cmd) s = .next (completePacket (packetOf 1#5 cmd) s) :=
  exec_decodePacket _ s

/-- Settles O52: the obligation's two lists are the reference table with the listed row of each command; such a row
acts as its packet, whose command has the button of the table. -/
theorem listedPacketsPostTheirButtons : Obligations.ListedPacketsPostTheirButtons := by
  constructor
  · intro s i cmd listed
    obtain ⟨_, -, row⟩ : ∃ r ∈ Config.referenceCmdMap, (listedRow r.1, r.1) = (i, cmd) := List.mem_map.1 listed
    cases row
    exact ⟨_, exec_listedRow _ s, exec_pkt 1#5 _ s⟩
  · intro s i code haddr hmap listed
    obtain ⟨⟨cmd, button⟩, hrow, row⟩ : ∃ r ∈ Config.referenceCmdMap, (listedRow r.1, r.2.code) = (i, code) :=
      List.mem_map.1 listed
    cases row
    obtain ⟨mapped, recognised⟩ : s.cfg.commandButton cmd = button ∧ button ≠ .noButton :=
      Config.commandButton_reference hmap hrow
    rw [exec_listedRow, ← haddr, completePacket_recognised (mapped ▸ recognised), mapped]

end Sys2Proof.Machine

/-! The statements of 40_capture.md: the counter, the edges, the capture and the width (rules R110 to R114), and that a
width is the true number of ticks (rule R116), for which first what a low pulse under measurement comes from. -/

namespace Sys2Proof.Machine

open Sys2Proof

/-! ### The operations of the capture unit -/

theorem fallingEdge_iff (irPrev irIn : Bool) : fallingEdge irPrev irIn = true ↔ irPrev = true ∧ irIn = false := by
  simp [fallingEdge]

theorem risingEdge_iff (irPrev irIn : Bool) : risingEdge irPrev irIn = true ↔ irPrev = false ∧ irIn = true := by
  simp [risingEdge]

/-- The width is the difference of the counter values modulo `2^W`, also where the counter has wrapped (rule R114). -/
theorem pulseWidth_eq_emod (c : Config) (tcnt capStart : Nat) :
    (pulseWidth c tcnt capStart : Int) = ((tcnt : Int) - capStart) % 2 ^ c.w := by
  have start_le : capStart % 2 ^ c.w ≤ 2 ^ c.w := (Nat.mod_lt _ (Nat.two_pow_pos c.w)).le
  rw [pulseWidth, Int.natCast_emod, Int.natCast_add, Int.ofNat_sub start_le, Int.natCast_emod, Nat.cast_pow,
    Nat.cast_ofNat]
  calc ((tcnt : Int) + (2 ^ c.w - (capStart : Int) % 2 ^ c.w)) % 2 ^ c.w
      = ((tcnt : Int) - (capStart : Int) % 2 ^ c.w + 2 ^ c.w) % 2 ^ c.w := by ring_nf
    _ = ((tcnt : Int) - (capStart : Int) % 2 ^ c.w) % 2 ^ c.w := Int.add_emod_right _ _
    _ = ((tcnt : Int) - capStart) % 2 ^ c.w := Int.sub_emod_emod _ _ _

/-- A tick without reset on scheduled lines: phases P1 and P2, then the end of the tick. -/
theorem step_scheduled {s t : State} {i : Inputs} {rest : List Inputs} (hi : s.inputs = i :: rest)
    (hr : i.rst = false) (h : step s = .next t) : ∃ u, HostDone s i u ∧ t = finishTick u := by
  obtain ⟨-, ⟨hr', -⟩ | ⟨-, tick⟩⟩ := step_hostDone h
  all_goals rw [State.takeInputs_cons hi] at *
  · exact absurd (hr.symm.trans hr') Bool.false_ne_true
  · exact tick

/-! ### The pulse under measurement -/

/-- A low pulse that is under measurement after a step of the decoder has begun in this tick, or it was under
measurement before and `ir_cnt` has counted the tick, if the decoder runs. -/
theorem DecoderMove.low_cases {s : State} {r : DecoderRegs} (m : DecoderMove s r)
    (low : r.irSt = .syncLow ∨ r.irSt = .bitLow) :
    (CaptureDue s ∧ r.capStart = s.tcnt ∧ r.irCnt = 0)
      ∨ (¬ CaptureDue s ∧ r.irSt = s.irSt ∧ r.capStart = s.capStart
        ∧ (s.irRuns = true → r.irCnt = s.irCnt + 1 ∧ s.irCnt + 1 < s.cfg.tTimeout)) := by
  cases m with
  | rest hd idle =>
    refine .inr ⟨hd, rfl, rfl, fun runs => ?_⟩
    simp [State.decoder, idle runs] at low
  | count hd _ hc => exact .inr ⟨hd, rfl, rfl, fun _ => ⟨rfl, hc⟩⟩
  | fall hd => exact .inl ⟨hd, rfl, rfl⟩
  | restart hs => simp [State.decoder, State.risen, hs] at low
  | _ => simp at low

/-- While a pulse is measured the decoder is enabled, and the tick is not `INIT`'s. -/
theorem HostDone.irRuns_of_low {s u : State} {i : Inputs} (h : HostDone s i u) (quiet : DisabledIsQuiet s)
    (low : u.irSt = .syncLow ∨ u.irSt = .bitLow) : u.irRuns = true := by
  obtain ⟨-, -, -, -, -, idle, -⟩ | ⟨-, hold, -⟩ := h.mode
  · simp [idle] at low
  · cases enabled : u.icie with
    | true => simp [State.irRuns, enabled, hold]
    | false =>
      obtain ⟨idle, -⟩ := h.disabledIsQuiet quiet enabled
      simp [idle] at low

/-- Phases P1 and P2 leave the width exact; `INIT` ends the measurement. -/
theorem HostDone.widthIsExact {s u : State} {i : Inputs} (h : HostDone s i u) (hI : WidthIsExact s) :
    WidthIsExact u := by
  intro low
  rw [h.cfg, h.tcnt, h.capStart, h.irCnt]
  obtain ⟨-, -, -, -, -, idle, -⟩ | ⟨-, -, -, -, -, irSt, -⟩ := h.mode
  · simp [idle] at low
  · exact hI (irSt ▸ low)

/-- The end of a tick keeps the width exact: the counter and `ir_cnt` both count the tick, and the time-out comes before
the counter has gone once around from the start of the pulse. -/
theorem HostDone.widthIsExact_finishTick {s u : State} {i : Inputs} (h : HostDone s i u) (hI : Invariant s)
    (hw : WidthIsExact s) : WidthIsExact (finishTick u) := by
  obtain ⟨hv, ⟨-, edge, -, quiet, -⟩, -⟩ := hI
  obtain ⟨-, -, -, one_le, timeout_lt, -⟩ := (Config.valid_iff u.cfg).1 (h.cfg ▸ hv)
  intro low
  rw [finishTick_cfg, finishTick_tcnt]
  obtain ⟨-, start, cnt⟩ | ⟨-, irSt, start, counts⟩ := (h.decoderMove edge).low_cases low
  · rw [show (finishTick u).capStart = u.tcnt from start, show (finishTick u).irCnt = 0 from cnt,
      pulseWidth_countUp_self]
    exact Nat.mod_eq_of_lt (one_le.trans_lt timeout_lt)
  · have low' : u.irSt = .syncLow ∨ u.irSt = .bitLow := irSt ▸ low
    obtain ⟨cnt, cnt_lt⟩ := counts (h.irRuns_of_low quiet low')
    rw [show (finishTick u).capStart = u.capStart from start, show (finishTick u).irCnt = u.irCnt + 1 from cnt,
      pulseWidth_countUp, h.widthIsExact hw low']
    exact Nat.mod_eq_of_lt (by omega)

/-! ### The obligations on one operation and on one tick -/

/-- Settles O22: the end of a tick counts, and phases P1 and P2 leave the counter alone. -/
theorem countWraps : Obligations.CountWraps := by
  refine ⟨fun s => rfl, fun s t i rest hi hr h => ?_⟩
  obtain ⟨u, hu, rfl⟩ := step_scheduled hi hr h
  rw [finishTick_tcnt, hu.cfg, hu.tcnt, countUp]

/-- Settles O23: the two edges need opposite previous samples, and `ir_prev` is the sample of phase P1. -/
theorem edgeComparesWithThePreviousSample : Obligations.EdgeComparesWithThePreviousSample := by
  refine ⟨fun s => ?_, fun s t i rest hi hr h => ?_⟩
  · have fall : (edgeOp s).wires.fall = true ↔ s.irPrev = true ∧ s.wires.inp.irIn = false := fallingEdge_iff _ _
    have rise : (edgeOp s).wires.rise = true ↔ s.irPrev = false ∧ s.wires.inp.irIn = true := risingEdge_iff _ _
    refine ⟨edgeOp s, rfl, rfl, fall, rise, fun ⟨hf, hr⟩ => ?_⟩
    obtain ⟨high, -⟩ := fall.1 hf
    obtain ⟨low, -⟩ := rise.1 hr
    exact Bool.false_ne_true (low.symm.trans high)
  · obtain ⟨u, hu, rfl⟩ := step_scheduled hi hr h
    rw [finishTick_irPrev, hu.irPrev]

/-- Settles O24, by the three things `CAPTURE` can do. -/
theorem captureLatchesTheSelectedEdge : Obligations.CaptureLatchesTheSelectedEdge := fun _ =>
  ⟨fun hi hh he hf => congrArg Host.Outcome.next (captureOp_falling hi hh he hf),
    fun hi hh he hr => congrArg Host.Outcome.next (captureOp_rising hi hh he hr),
    fun hd => congrArg Host.Outcome.next (captureOp_none hd)⟩

/-- Settles O25: at a rising-edge capture the width delivered is `pulseWidth`, the modular difference. -/
theorem widthIsTheModularDifference : Obligations.WidthIsTheModularDifference := by
  intro s
  have width : exec .width s = .next _ := congrArg Host.Outcome.next (widthOp_eq s)
  constructor
  · intro hc
    rw [if_pos hc] at width
    exact ⟨_, width, pulseWidth_eq_emod s.cfg s.tcnt s.capStart⟩
  · intro hc
    rwa [if_neg hc] at width

/-- Settles O26: after a reset tick no pulse is measured, and the end of any other tick keeps the width exact. -/
theorem measuredWidthIsTheTrueTickCount : Obligations.MeasuredWidthIsTheTrueTickCount := by
  intro s t hI hw h
  obtain ⟨-, ⟨-, rfl⟩ | ⟨-, u, hu, rfl⟩⟩ := step_hostDone h
  · simp [WidthIsExact, State.resetTick, State.reset]
  · exact hu.widthIsExact_finishTick hI hw

end Sys2Proof.Machine

/-! Two machines that differ in their counters alone (40_capture.md rule R116): the values of the counter reach the
decoder through the wire of the width only, and nothing else reads that wire. -/

namespace Sys2Proof.Machine

open Sys2Proof

/-! ### States that differ in their timing alone -/

/-- `s` with the counter, the captured values and the wire of the width taken from `t`. -/
def State.timedBy (s t : State) : State :=
  { s with
    tcnt := t.tcnt
    icr := t.icr
    capStart := t.capStart
    wires := { s.wires with width := t.wires.width } }

/-- `t` differs from `s` only in its timing. -/
def SameButTiming (s t : State) : Prop := t = s.timedBy t

theorem sameButTiming_timedBy (s t : State) : SameButTiming s (s.timedBy t) := rfl

/-- An operation that does what it does in `s` for another timing too keeps two states the same but for it. -/
theorem SameButTiming.map_of_eq {s t : State} {f : State → State} (h : SameButTiming s t)
    (hf : f (s.timedBy t) = (f s).timedBy t) : SameButTiming (f s) (f t) := by
  rw [show t = s.timedBy t from h, hf]
  rfl

/-- An operation that does not read the timing keeps two states the same but for it. -/
theorem SameButTiming.map {s t : State} {f : State → State} (h : SameButTiming s t)
    (hf : ∀ s t, f (s.timedBy t) = (f s).timedBy t) : SameButTiming (f s) (f t) := h.map_of_eq (hf s t)

/-- What does not depend on the timing is the same in both states. -/
theorem SameButTiming.keeps {α : Type} {s t : State} (h : SameButTiming s t) (f : State → α)
    (hf : ∀ s t, f (s.timedBy t) = f s) : f t = f s := by
  rw [show t = s.timedBy t from h, hf]

/-- A pulse under measurement in `s` has the same width in `t`. -/
def SameWidth (s t : State) : Prop :=
  s.irSt = .syncLow ∨ s.irSt = .bitLow →
    pulseWidth t.cfg t.tcnt t.capStart = pulseWidth s.cfg s.tcnt s.capStart

/-- States between two ticks that differ only in their counters. -/
theorem SameButCounter.sameButTiming {s t : State} (h : SameButCounter s t) : SameButTiming s t := by
  obtain ⟨same, -⟩ := h
  rw [same]
  rfl

theorem timedBy_ite {P : Prop} [Decidable P] (a b t : State) :
    State.timedBy (if P then a else b) t = if P then a.timedBy t else b.timedBy t := by
  split <;> rfl

/-! ### The sequencer does not read the timing -/

theorem ensampleOp_timedBy (s t : State) : ensampleOp (s.timedBy t) = (ensampleOp s).timedBy t := by
  rw [ensampleOp_eq, ensampleOp_eq]
  rfl

theorem enterSettle_timedBy (s t : State) : enterSettle (s.timedBy t) = (enterSettle s).timedBy t := by
  simp only [enterSettle, timedBy_ite, ← ensampleOp_timedBy]
  rfl

theorem pchStep_timedBy (s t : State) : pchStep (s.timedBy t) = (pchStep s).timedBy t := by
  have st : (s.timedBy t).pchSt = s.pchSt := rfl
  unfold pchStep
  rw [st]
  cases s.pchSt with
  | idle =>
    simp only [pcstartOp, timedBy_ite, ← enterSettle_timedBy, enterDebounce]
    rfl
  | dbQual =>
    simp only [dbqualOp, timedBy_ite, ← enterSettle_timedBy, dbabortOp]
    rfl
  | dbRel =>
    simp only [dbrelOp, timedBy_ite, ← enterSettle_timedBy, dbabortOp]
    rfl
  | enSettle =>
    simp only [ensettleOp, timedBy_ite, ← ensampleOp_timedBy, enabortOp]
    rfl

/-! ### The decoder reads the width and no other timing -/

theorem irarmOp_timedBy (s t : State) : irarmOp (s.timedBy t) = (irarmOp s).timedBy t := by
  simp only [irarmOp, timedBy_ite]
  rfl

theorem irrelOp_timedBy (s t : State) : irrelOp (s.timedBy t) = (irrelOp s).timedBy t := by
  simp only [irrelOp, timedBy_ite]
  rfl

theorem irtimeoutOp_timedBy (s t : State) : irtimeoutOp (s.timedBy t) = (irtimeoutOp s).timedBy t := by
  have st : (s.timedBy t).irSt = s.irSt := rfl
  simp only [irtimeoutOp, timedBy_ite, st]
  cases timeoutCause s.irSt <;> rfl

theorem leadOp_timedBy (s t : State) : leadOp (s.timedBy t) = (leadOp s).timedBy t := by
  simp only [leadOp, timedBy_ite]
  rfl

theorem notLeadOp_timedBy (s t : State) : notLeadOp (s.timedBy t) = (notLeadOp s).timedBy t := by
  simp only [notLeadOp, timedBy_ite]
  rfl

theorem storeBit_timedBy (b : Bool) (s t : State) : storeBit b (s.timedBy t) = (storeBit b s).timedBy t := by
  simp only [storeBit, timedBy_ite]
  rfl

theorem zeroOp_timedBy (s t : State) : zeroOp (s.timedBy t) = (zeroOp s).timedBy t := by
  simp only [zeroOp, timedBy_ite, storeBit_timedBy]
  rfl

theorem oneOp_timedBy (s t : State) : oneOp (s.timedBy t) = (oneOp s).timedBy t := by
  simp only [oneOp, timedBy_ite, storeBit_timedBy]
  rfl

theorem badOp_timedBy (s t : State) : badOp (s.timedBy t) = (badOp s).timedBy t := by
  simp only [badOp, timedBy_ite]
  rfl

theorem iraddrOp_timedBy (s t : State) : iraddrOp (s.timedBy t) = (iraddrOp s).timedBy t := by
  have packet : (s.timedBy t).wires.packet = s.wires.packet := rfl
  unfold iraddrOp
  rw [packet]
  cases s.wires.packet with
  | none => rfl
  | some p =>
    simp only [timedBy_ite]
    rfl

theorem ircmdOp_timedBy (s t : State) : ircmdOp (s.timedBy t) = (ircmdOp s).timedBy t := by
  have packet : (s.timedBy t).wires.packet = s.wires.packet := rfl
  unfold ircmdOp
  rw [packet]
  cases s.wires.packet with
  | none => rfl
  | some p =>
    simp only [acceptCommand_eq]
    rfl

/-- `IRSYNC` reads the width in `IR_SYNC_LOW` only. -/
theorem irsyncOp_timedBy {s t : State} (hw : t.wires.width = s.wires.width) :
    irsyncOp (s.timedBy t) = (irsyncOp s).timedBy t := by
  have st : (s.timedBy t).irSt = s.irSt := rfl
  have cap : (s.timedBy t).wires.cap = s.wires.cap := rfl
  have width : (s.timedBy t).wires.width = s.wires.width := hw
  unfold irsyncOp
  rw [st, cap, width]
  cases s.irSt with
  | syncLow =>
    cases s.wires.cap with
    | none => rfl
    | some e =>
      cases s.wires.width with
      | none => rfl
      | some w =>
        simp only [timedBy_ite, ← leadOp_timedBy, ← notLeadOp_timedBy]
        rfl
  | syncGap => cases s.wires.cap <;> rfl
  | _ => rfl

/-- `IRBIT` reads the width in `IR_BIT_LOW` only. -/
theorem irbitOp_timedBy {s t : State} (hw : t.wires.width = s.wires.width) :
    irbitOp (s.timedBy t) = (irbitOp s).timedBy t := by
  have st : (s.timedBy t).irSt = s.irSt := rfl
  have cap : (s.timedBy t).wires.cap = s.wires.cap := rfl
  have width : (s.timedBy t).wires.width = s.wires.width := hw
  unfold irbitOp
  rw [st, cap, width]
  cases s.irSt with
  | bitLow =>
    cases s.wires.cap with
    | none => rfl
    | some e =>
      cases s.wires.width with
      | none => rfl
      | some w =>
        simp only [timedBy_ite, ← zeroOp_timedBy, ← oneOp_timedBy, ← badOp_timedBy]
        rfl
  | bitGap => cases s.wires.cap <;> rfl
  | _ => rfl

/-! ### The tick of both machines -/

section
variable {s t : State}

theorem SameButTiming.captureDue_iff (h : SameButTiming s t) : CaptureDue t ↔ CaptureDue s :=
  iff_of_eq (h.keeps CaptureDue fun _ _ => rfl)

/-- What `CAPTURE` and `WIDTH` leave differs only in its timing. -/
theorem SameButTiming.captured (h : SameButTiming s t) :
    SameButTiming (widthOp (captureOp s)) (widthOp (captureOp t)) := by
  rw [show t = s.timedBy t from h]
  by_cases hd : CaptureDue s
  · obtain ⟨-, -, ⟨he, hf⟩ | ⟨he, hr⟩⟩ := id hd
    · rw [captured_falling hd he hf, captured_falling (s := s.timedBy t) hd he hf]
      rfl
    · rw [captured_rising hd he hr, captured_rising (s := s.timedBy t) hd he hr]
      rfl
  · rw [captured_none hd, captured_none (s := s.timedBy t) hd]
    rfl

/-- The width delivered is the same in both machines, but in the release wait, which does not look at it. -/
theorem SameButTiming.captured_width (h : SameButTiming s t) (hw : SameWidth s t) (edge : EdgeSelectFits s)
    (hs : s.irSt ≠ .rel) : (widthOp (captureOp t)).wires.width = (widthOp (captureOp s)).wires.width := by
  have due := h.captureDue_iff
  have ices : t.ices = s.ices := h.keeps State.ices fun _ _ => rfl
  by_cases hd : CaptureDue s
  · obtain ⟨-, -, ⟨he, hf⟩ | ⟨he, hr⟩⟩ := id hd
    · have fall : t.wires.fall = s.wires.fall := h.keeps (·.wires.fall) fun _ _ => rfl
      rw [captured_falling hd he hf, captured_falling (due.2 hd) (ices.trans he) (fall.trans hf)]
    · have rise : t.wires.rise = s.wires.rise := h.keeps (·.wires.rise) fun _ _ => rfl
      rw [captured_rising hd he hr, captured_rising (due.2 hd) (ices.trans he) (rise.trans hr)]
      refine congrArg some (hw ?_)
      obtain ⟨-, high⟩ := edge
      cases st : s.irSt <;> simp [st, he] at hs high ⊢
  · rw [captured_none hd, captured_none (due.not.2 hd)]

/-- The decoder's step does the same in both machines. -/
theorem irStep_sameButTiming (h : SameButTiming s t) (hw : SameWidth s t) (edge : EdgeSelectFits s) :
    SameButTiming (irStep s) (irStep t) := by
  have due := h.captureDue_iff
  have st : t.irSt = s.irSt := h.keeps State.irSt fun _ _ => rfl
  have width := h.captured_width hw edge
  by_cases hd : CaptureDue s
  · rw [irStep_captured hd, irStep_captured (due.2 hd), st]
    cases hs : s.irSt with
    | idle => exact h.captured.map irarmOp_timedBy
    | syncLow => exact h.captured.map_of_eq (irsyncOp_timedBy (width (by simp [hs])))
    | syncGap => exact h.captured.map_of_eq (irsyncOp_timedBy (width (by simp [hs])))
    | bitGap => exact h.captured.map_of_eq (irbitOp_timedBy (width (by simp [hs])))
    | bitLow =>
      have stored := h.captured.map_of_eq (irbitOp_timedBy (width (by simp [hs])))
      exact (stored.map iraddrOp_timedBy).map ircmdOp_timedBy
    | rel => exact h.captured.map irrelOp_timedBy
  · rw [irStep_quiet hd, irStep_quiet (due.not.2 hd), ← captured_none hd, ← captured_none (due.not.2 hd)]
    exact h.captured.map irtimeoutOp_timedBy

/-- After the tick the width under measurement is the same in both machines: either both have counted the tick, or the
pulse begins in both. -/
theorem DecoderMove.sameWidth {r q : DecoderRegs} (m : DecoderMove s r) (m' : DecoderMove t q) (h : SameButTiming s t)
    (hw : SameWidth s t) (irSt : q.irSt = r.irSt) (low : r.irSt = .syncLow ∨ r.irSt = .bitLow) :
    pulseWidth t.cfg (countUp t.cfg t.tcnt) q.capStart = pulseWidth s.cfg (countUp s.cfg s.tcnt) r.capStart := by
  have due := h.captureDue_iff
  have cfg : t.cfg = s.cfg := h.keeps State.cfg fun _ _ => rfl
  obtain ⟨hd, start, -⟩ | ⟨hd, before, start, -⟩ := m.low_cases low <;>
    obtain ⟨hd', start', -⟩ | ⟨hd', -, start', -⟩ := m'.low_cases (irSt ▸ low)
  · rw [start, start', pulseWidth_countUp_self, pulseWidth_countUp_self, cfg]
  · exact absurd (due.2 hd) hd'
  · exact absurd (due.1 hd') hd
  · rw [start, start', pulseWidth_countUp, pulseWidth_countUp, hw (before ▸ low), cfg]

/-- The end of a tick keeps two machines the same but for their counters. -/
theorem finishTick_sameButCounter (h : SameButTiming s t) (hw : SameWidth s t) (edge : EdgeSelectFits s)
    (m : DecoderMove s (enginesDone s).decoder) (m' : DecoderMove t (enginesDone t).decoder) :
    SameButCounter (finishTick s) (finishTick t) := by
  have engines : SameButTiming (enginesDone s) (enginesDone t) := (irStep_sameButTiming h hw edge).map pchStep_timedBy
  have irSt : (enginesDone t).irSt = (enginesDone s).irSt := engines.keeps State.irSt fun _ _ => rfl
  constructor
  · rw [finishTick_eq t, show enginesDone t = _ from engines]
    rfl
  · rw [finishTick_cfg, finishTick_cfg, finishTick_tcnt, finishTick_tcnt]
    exact m.sameWidth m' h hw irSt

/-- The lines of a tick do not depend on the timing. -/
theorem takeInputs_timedBy (s t : State) :
    (s.timedBy t).takeInputs = (s.takeInputs.1, s.takeInputs.2.timedBy t) := by
  have inputs : (s.timedBy t).inputs = s.inputs := rfl
  unfold State.takeInputs
  rw [inputs]
  cases s.inputs <;> rfl

/-- Phase P1 does not read the timing. -/
theorem beginTick_sameButTiming (h : SameButTiming s t) (i : Inputs) :
    SameButTiming (beginTick i s) (beginTick i t) := by
  rw [show t = s.timedBy t from h]
  rfl

/-- The host operation does not read the timing. -/
theorem exec_decodeHost_sameButTiming {u v : State} (h : SameButTiming s t) {w : HostWord}
    (hu : exec (decodeHost w) s = .next u) (hv : exec (decodeHost w) t = .next v) : SameButTiming u v := by
  rw [exec_decodeHost, Host.Outcome.next.injEq] at hu hv
  rw [show t = s.timedBy t from h] at hv
  subst hu hv
  split_ifs <;> rfl

/-- Phases P1 and P2 keep the width under measurement the same; `INIT` ends the measurement. -/
theorem HostDone.sameWidth {u v : State} {i : Inputs} (hu : HostDone s i u) (hv : HostDone t i v)
    (hw : SameWidth s t) : SameWidth u v := by
  intro low
  rw [hu.cfg, hu.tcnt, hu.capStart, hv.cfg, hv.tcnt, hv.capStart]
  obtain ⟨-, -, -, -, -, idle, -⟩ | ⟨-, -, -, -, -, irSt, -⟩ := hu.mode
  · simp [idle] at low
  · exact hw (irSt ▸ low)
end

/-- A step that the first machine can take, the second takes alike. -/
theorem step_sameButCounter {s t s' : State} (h : SameButCounter s t) (edge : EdgeSelectFits s)
    (hs : step s = .next s') : ∃ t', step t = .next t' ∧ SameButCounter s' t' := by
  have same := h.sameButTiming
  have width : SameWidth s t := h.2
  have cfg : t.cfg = s.cfg := same.keeps State.cfg fun _ _ => rfl
  have lines : t.takeInputs = (s.takeInputs.1, s.takeInputs.2.timedBy t) := by
    rw [← takeInputs_timedBy, ← show t = s.timedBy t from same]
  obtain ⟨hv, tick⟩ := step_cases hs
  obtain ⟨t', ht⟩ := runs_of_valid (s := t) (cfg ▸ hv)
  refine ⟨t', ht, ?_⟩
  obtain ⟨-, tick'⟩ := step_cases ht
  have frame := t.takeInputs_frame
  rw [lines] at tick' frame
  obtain ⟨hr, rfl⟩ | ⟨hr, u, hu, rfl⟩ := tick <;> obtain ⟨hr', rfl⟩ | ⟨hr', v, hv', rfl⟩ := tick'
  · exact ⟨rfl, fun _ => rfl⟩
  · exact absurd (hr.symm.trans hr') Bool.noConfusion
  · exact absurd (hr'.symm.trans hr) Bool.noConfusion
  · obtain ⟨doneU, -⟩ := hostDone s.takeInputs_frame hu
    obtain ⟨doneV, -⟩ := hostDone frame hv'
    have same' : SameButTiming u v :=
      exec_decodeHost_sameButTiming (beginTick_sameButTiming (sameButTiming_timedBy _ t) _) hu hv'
    have irSt : t.irSt = s.irSt := same.keeps State.irSt fun _ _ => rfl
    have ices : t.ices = s.ices := same.keeps State.ices fun _ _ => rfl
    have edge' : EdgeSelectFits t := by rwa [EdgeSelectFits, irSt, ices]
    exact finishTick_sameButCounter same' (doneU.sameWidth doneV width) (doneU.edgeSelectFits edge)
      (doneU.decoderMove edge) (doneV.decoderMove edge')

/-- Every step keeps 10_state.md rule R48 item 2, whatever else holds. -/
theorem step_keeps_edgeSelectFits {s t : State} (edge : EdgeSelectFits s) (h : step s = .next t) :
    EdgeSelectFits t := by
  obtain ⟨-, ⟨-, rfl⟩ | ⟨-, u, hu, rfl⟩⟩ := step_hostDone h
  · exact ⟨by simp [State.resetTick, State.reset], fun _ => rfl⟩
  · exact (hu.decoderMove edge).edgeSelectFits (hu.edgeSelectFits edge)

/-- A run goes on from what its first step left. -/
theorem run_succ {M : Host.Core} {n : Nat} {s u : M.State} (h : M.step s = .next u) : M.run (n + 1) s = M.run n u := by
  rw [Host.Core.run, h]

/-- A run that the first machine can make, the second makes alike. -/
theorem run_sameButCounter (n : Nat) {s t s' : State} (h : SameButCounter s t) (edge : EdgeSelectFits s)
    (hs : Sys2Proof.core.run n s = .next s') :
    ∃ t', Sys2Proof.core.run n t = .next t' ∧ SameButCounter s' t' := by
  induction n generalizing s t with
  | zero =>
    cases hs
    exact ⟨t, rfl, h⟩
  | succ n ih =>
    obtain ⟨u, hu, rest⟩ := run_succ_next hs
    obtain ⟨v, hv, same⟩ := step_sameButCounter h edge hu
    obtain ⟨t', ht, same'⟩ := ih same (step_keeps_edgeSelectFits edge hu) rest
    exact ⟨t', (run_succ hv).trans ht, same'⟩

/-! ### The obligation -/

/-- Settles O27, by induction on the length of the run: both runs differ only in their counters, and neither the outputs
nor the mailbox are among these. -/
theorem counterOffsetIsUnobservable : Obligations.CounterOffsetIsUnobservable := by
  intro c ins n k t h
  have start : SameButCounter { State.reset with cfg := c, inputs := ins }
      { State.reset with cfg := c, inputs := ins, tcnt := k } := ⟨rfl, by simp [State.reset]⟩
  have edge : EdgeSelectFits { State.reset with cfg := c, inputs := ins } := ⟨by simp [State.reset], fun _ => rfl⟩
  obtain ⟨t', ht, same, -⟩ := run_sameButCounter n start edge h
  refine ⟨t', ht, ?_⟩
  rw [same]
  exact ⟨rfl, rfl⟩

end Sys2Proof.Machine

/-! The statements of 41_debounce.md: the pin-change flag (rule R130), the start of a handler run (rules R132, R134), the
Debounce Engine's qualification and release wait (rules R135 to R137), and that a confirmed release posts the latched
mask (rule R136). First what each operation does where its guard holds; then a tick of the engine; then still lines. -/

namespace Sys2Proof.Machine

open Sys2Proof

/-! ### The terms of the Debounce Engine's guards -/

/-- The pressed mask of rule R133, on the sampled lines. -/
theorem State.mask_eq (s : State) : s.mask = ~~~s.wires.inp.btnN &&& 0x3F#6 := rfl

theorem State.pchRuns_iff (s : State) : s.pchRuns = true ↔ s.pcie = true ∧ s.wires.hold = false := by
  simp [State.pchRuns]

theorem boundReached_iff (x : Nat) (bound : Option Nat) :
    boundReached x bound = true ↔ ∃ b, bound = some b ∧ b ≤ x := by
  cases bound <;> simp [boundReached]

theorem boundReached_eq_false_iff (x : Nat) (bound : Option Nat) :
    boundReached x bound = false ↔ ∀ b, bound = some b → x < b := by
  cases bound <;> simp [boundReached]

/-! ### The operations where they run -/

/-- The entry of the settle window as an outcome is `EnterSettle` (42_quadrature.md rule R160). -/
theorem settleEntered_eq (s : State) : settleEntered s = .next (enterSettle s) := by
  unfold settleEntered enterSettle
  by_cases h : 1 < s.cfg.tSettle
  · rw [if_pos h, if_neg (Nat.not_le.2 h)]
    rfl
  · rw [if_neg h, if_pos (Nat.le_of_not_lt h)]
    rfl

/-- With more than one tick to settle, entering the window takes no sample. -/
theorem enterSettle_opens {s : State} (h : 1 < s.cfg.tSettle) :
    enterSettle s = { s with pchSt := .enSettle, enRaw := s.wires.inp.enc, enCnt := 1, enTot := 0 } :=
  if_neg (Nat.not_le.2 h)

/-- Entering the engine starts qualification (rule R134). -/
theorem enterDebounce_qualifies {s : State} (h : 1 < s.cfg.tPress) :
    enterDebounce s = { s with pchSt := .dbQual, dbCand := s.mask, dbCnt := 1, dbTot := 0 } :=
  if_neg (Nat.not_le.2 h)

/-- With `T_PRESS = 1` entering the engine accepts the press (rule R134). -/
theorem enterDebounce_accepts {s : State} (h : s.cfg.tPress ≤ 1) :
    enterDebounce s = { s with pchSt := .dbRel, dbCand := s.mask, dbCnt := 0, dbTot := 0 } :=
  if_pos h

/-- A run starts: the flag is consumed, and the button lines select the engine (rule R132). -/
theorem pcstartOp_runs {s : State} (runs : s.pchRuns = true) (idle : s.pchSt = .idle) (flag : s.pcif = true) :
    pcstartOp s = if s.mask = 0#6 then enterSettle s.withClr else enterDebounce s.withClr :=
  if_pos (by simp [runs, idle, flag])

/-- The test of the total bound that ends every counted tick of the engine (rule R137). -/
def abortAtBound (s : State) : State := if boundReached s.dbTot s.cfg.tDbMax then dbabortOp s else s

theorem abortAtBound_reached {s : State} (h : ∃ b, s.cfg.tDbMax = some b ∧ b ≤ s.dbTot) :
    abortAtBound s = dbabortOp s := if_pos ((boundReached_iff _ _).2 h)

theorem abortAtBound_below {s : State} (h : ∀ b, s.cfg.tDbMax = some b → s.dbTot < b) : abortAtBound s = s :=
  if_neg (by rw [(boundReached_eq_false_iff _ _).2 h]; exact Bool.false_ne_true)

/-- A tick of qualification (rule R135). -/
theorem dbqualOp_runs {s : State} (runs : s.pchRuns = true) (st : s.pchSt = .dbQual) :
    dbqualOp s =
      if s.mask = s.dbCand then
        if s.cfg.tPress ≤ s.dbCnt + 1 then { s with dbTot := s.dbTot + 1, pchSt := .dbRel, dbCnt := 0 }
        else abortAtBound { s with dbTot := s.dbTot + 1, dbCnt := s.dbCnt + 1 }
      else if s.mask = 0#6 then enterSettle ({ s with dbTot := s.dbTot + 1 }.withReject .shortPress).withClr
      else abortAtBound { s with dbTot := s.dbTot + 1, dbCand := s.mask, dbCnt := 1 } :=
  if_pos (by simp [runs, st])

/-- A tick of the release wait with a line pressed restarts the window (rule R136). -/
theorem dbrelOp_pressed {s : State} (runs : s.pchRuns = true) (st : s.pchSt = .dbRel) (window : 1 ≤ s.cfg.tDebounce)
    (pressed : s.mask ≠ 0#6) : dbrelOp s = abortAtBound { s with dbTot := s.dbTot + 1, dbCnt := 0 } := by
  have unconfirmed : ¬ s.cfg.tDebounce ≤ 0 := Nat.not_le.2 window
  simp only [dbrelOp, runs, st, pressed, unconfirmed, if_false, beq_self_eq_true, Bool.and_self, if_true]
  rfl

/-- A released read that does not complete the window counts (rule R136). -/
theorem dbrelOp_counts {s : State} (runs : s.pchRuns = true) (st : s.pchSt = .dbRel) (released : s.mask = 0#6)
    (short : s.dbCnt + 1 < s.cfg.tDebounce) :
    dbrelOp s = abortAtBound { s with dbTot := s.dbTot + 1, dbCnt := s.dbCnt + 1 } := by
  have unconfirmed : ¬ s.cfg.tDebounce ≤ s.dbCnt + 1 := Nat.not_le.2 short
  simp only [dbrelOp, runs, st, released, unconfirmed, if_false, beq_self_eq_true, Bool.and_self, if_true]
  rfl

/-- The released read that completes the window posts the latched mask (rule R136), before the bound is tested. -/
theorem dbrelOp_confirms {s : State} (runs : s.pchRuns = true) (st : s.pchSt = .dbRel) (released : s.mask = 0#6)
    (full : s.cfg.tDebounce ≤ s.dbCnt + 1) :
    dbrelOp s = enterSettle { s with
      dbTot := s.dbTot + 1
      dbCnt := s.dbCnt + 1
      wires := { s.wires with clr := true, posts := { s.wires.posts with db := some (s.dbCand.setWidth 8) } } } := by
  simp only [dbrelOp, runs, st, released, full, beq_self_eq_true, Bool.and_self, if_true]
  rfl

/-- The tick that confirms the release, where the settle window is longer than one tick: no knob is sampled in it. -/
theorem dbrelOp_posts {s : State} (runs : s.pchRuns = true) (st : s.pchSt = .dbRel) (released : s.mask = 0#6)
    (full : s.cfg.tDebounce ≤ s.dbCnt + 1) (settle : 1 < s.cfg.tSettle) :
    (dbrelOp s).pchSt = .enSettle
      ∧ (dbrelOp s).wires.posts = { s.wires.posts with db := some (s.dbCand.setWidth 8) } := by
  rw [dbrelOp_confirms runs st released full, enterSettle_opens]
  · exact ⟨rfl, rfl⟩
  · exact settle

/-! ### A step of the sequencer -/

/-- The sequencer's step in the release wait is `DBREL`. -/
theorem pchStep_of_dbRel {s : State} (st : s.pchSt = .dbRel) : pchStep s = dbrelOp s := by
  rw [pchStep, st]

/-- Entering the settle window does not lead to the release wait. -/
theorem enterSettle_ne_dbRel (s : State) : (enterSettle s).pchSt ≠ .dbRel := by
  obtain ⟨-, -, -, st | st⟩ := enterSettle_db s <;> simp [st]

/-- The test of the bound does not lead to the release wait from another state. -/
theorem abortAtBound_ne_dbRel {s : State} (st : s.pchSt ≠ .dbRel) : (abortAtBound s).pchSt ≠ .dbRel := by
  unfold abortAtBound
  split
  · exact enterSettle_ne_dbRel _
  · exact st

/-- Another tick of the settle window does not lead to the release wait. -/
theorem ensettleOp_ne_dbRel {s : State} (st : s.pchSt ≠ .dbRel) : (ensettleOp s).pchSt ≠ .dbRel := by
  unfold ensettleOp
  split
  · extract_lets tot c counted
    split
    · obtain ⟨-, -, -, idle⟩ := ensampleOp_db counted
      simp [idle]
    · split
      · simp [enabortOp]
      · exact st
  · exact st

/-- The tick of qualification that accepts has read the latched mask for `T_PRESS` ticks. -/
theorem dbqualOp_enters_dbRel {s : State} (st : s.pchSt = .dbQual) (h : (dbqualOp s).pchSt = .dbRel) :
    s.pchRuns = true ∧ s.mask = s.dbCand ∧ s.cfg.tPress ≤ s.dbCnt + 1 ∧ (dbqualOp s).dbCand = s.mask := by
  have ne : s.pchSt ≠ .dbRel := by simp [st]
  by_cases runs : s.pchRuns = true
  · rw [dbqualOp_runs runs st] at h ⊢
    by_cases hm : s.mask = s.dbCand
    · rw [if_pos hm] at h ⊢
      by_cases hc : s.cfg.tPress ≤ s.dbCnt + 1
      · rw [if_pos hc]
        exact ⟨runs, hm, hc, hm.symm⟩
      · rw [if_neg hc] at h
        exact absurd h (abortAtBound_ne_dbRel ne)
    · rw [if_neg hm] at h
      split at h
      · exact absurd h (enterSettle_ne_dbRel _)
      · exact absurd h (abortAtBound_ne_dbRel ne)
  · have held : dbqualOp s = s := if_neg (by simp [runs])
    exact absurd (held ▸ h) ne

/-- The start that accepts has the flag, a pressed line and `T_PRESS = 1`. -/
theorem pcstartOp_enters_dbRel {s : State} (st : s.pchSt = .idle) (h : (pcstartOp s).pchSt = .dbRel) :
    s.pchRuns = true ∧ s.pcif = true ∧ s.mask ≠ 0#6 ∧ s.cfg.tPress ≤ 1 ∧ (pcstartOp s).dbCand = s.mask := by
  by_cases start : s.pchRuns = true ∧ s.pcif = true
  · obtain ⟨runs, flag⟩ := start
    rw [pcstartOp_runs runs st flag] at h ⊢
    by_cases hm : s.mask = 0#6
    · rw [if_pos hm] at h
      exact absurd h (enterSettle_ne_dbRel _)
    · rw [if_neg hm] at h ⊢
      by_cases hp : s.cfg.tPress ≤ 1
      · rw [enterDebounce_accepts (s := s.withClr) hp]
        exact ⟨runs, flag, hm, hp, rfl⟩
      · rw [enterDebounce_qualifies (s := s.withClr) (Nat.lt_of_not_le hp)] at h
        cases h
  · have held : pcstartOp s = s := if_neg (by simpa [st] using start)
    rw [held, st] at h
    cases h

/-- A step of the sequencer enters the release wait in two ways, and latches this tick's mask in both. -/
theorem pchStep_enters_dbRel {s : State} (ne : s.pchSt ≠ .dbRel) (h : (pchStep s).pchSt = .dbRel) :
    s.pchRuns = true ∧ (pchStep s).dbCand = s.mask
      ∧ ((s.pchSt = .dbQual ∧ s.dbCand = s.mask ∧ s.cfg.tPress ≤ s.dbCnt + 1)
        ∨ (s.pchSt = .idle ∧ s.pcif = true ∧ s.mask ≠ 0#6 ∧ s.cfg.tPress ≤ 1)) := by
  unfold pchStep at h ⊢
  cases st : s.pchSt with
  | idle =>
    simp only [st] at h ⊢
    obtain ⟨runs, flag, hm, hp, cand⟩ := pcstartOp_enters_dbRel st h
    exact ⟨runs, cand, .inr ⟨trivial, flag, hm, hp⟩⟩
  | dbQual =>
    simp only [st] at h ⊢
    obtain ⟨runs, hm, hc, cand⟩ := dbqualOp_enters_dbRel st h
    exact ⟨runs, cand, .inl ⟨trivial, hm.symm, hc⟩⟩
  | dbRel => exact absurd st ne
  | enSettle =>
    simp only [st] at h
    exact absurd h (ensettleOp_ne_dbRel ne)

/-! Phases P4 and P5 leave the Debounce Engine's registers as the engines of P3 left them. -/

theorem finishTick_pchSt (u : State) : (finishTick u).pchSt = (enginesDone u).pchSt := by rw [finishTick_eq]

theorem finishTick_dbCand (u : State) : (finishTick u).dbCand = (enginesDone u).dbCand := by rw [finishTick_eq]

theorem finishTick_dbCnt (u : State) : (finishTick u).dbCnt = (enginesDone u).dbCnt := by rw [finishTick_eq]

theorem finishTick_dbTot (u : State) : (finishTick u).dbTot = (enginesDone u).dbTot := by rw [finishTick_eq]

/-- The sequencer steps from a state that differs from `u` only where the decoder writes. -/
theorem engines_eq (u : State) : enginesDone u = pchStep (u.irPart (irStep u)) := congrArg pchStep (irStep_frame u)

/-! ### The obligations on one operation and on one tick -/

/-- Settles O28: `PCDETECT` is the comparison and `nextPcif`; the pins of a tick are its sampled lines, and `INIT` holds
the flag down. -/
theorem pinChangeSetWinsOverClear : Obligations.PinChangeSetWinsOverClear := by
  constructor
  · intro s
    refine ⟨pcdetectOp s, rfl, rfl, bne_iff_ne, fun run => ?_, fun hold => if_pos hold⟩
    have flag : (pcdetectOp s).pcif = nextPcif s.pcif s.wires.clr s.pcie (pcdetectOp s).wires.chg :=
      if_neg (by simp [run])
    rw [flag]
    simp [nextPcif]
  · intro s t i rest hi hr h
    obtain ⟨u, hu, rfl⟩ := step_scheduled hi hr h
    have pins : (enginesDone u).pins = u.pins := enginesDone_keeps u State.pins (fun _ _ => rfl) (fun _ _ => rfl)
    have hold : (enginesDone u).wires.hold = u.wires.hold :=
      enginesDone_keeps u (fun t => t.wires.hold) (fun _ _ => rfl) (fun _ _ => rfl)
    constructor
    · calc (finishTick u).pcPrev = (enginesDone u).pins := rfl
        _ = u.pins := pins
        _ = i.enc ++ i.btnN := by rw [State.pins, hu.inp, pinVector]
    · intro op
      obtain ⟨-, held, -⟩ | ⟨op', -⟩ := hu.mode
      · exact if_pos (hold.trans held)
      · exact absurd op op'

/-- Settles O29: the three entries of a run, and the guard. -/
theorem pcstartStartsAHandlerRun : Obligations.PcstartStartsAHandlerRun := by
  intro s
  rw [← State.mask_eq]
  constructor
  · intro hp hh idle flag
    have start : exec .pcstart s = .next _ :=
      congrArg Host.Outcome.next (pcstartOp_runs ((State.pchRuns_iff s).2 ⟨hp, hh⟩) idle flag)
    rw [start]
    refine ⟨fun pressed long => ?_, fun pressed short => ?_, fun released => ?_⟩
    · rw [if_neg pressed, enterDebounce_qualifies (s := s.withClr) long]
      rfl
    · rw [if_neg pressed, enterDebounce_accepts (s := s.withClr) short]
      rfl
    · rw [if_pos released, settleEntered_eq]
      rfl
  · intro guard
    exact congrArg Host.Outcome.next (if_neg (by simpa [State.pchRuns, and_assoc] using guard))

/-- Settles O30: the two entries of the engine, and none on an empty mask. -/
theorem dbstartEntersTheEngine : Obligations.DbstartEntersTheEngine := by
  intro s
  rw [← State.mask_eq]
  exact ⟨fun pressed long => congrArg Host.Outcome.next ((if_neg pressed).trans (enterDebounce_qualifies long)),
    fun pressed short => congrArg Host.Outcome.next ((if_neg pressed).trans (enterDebounce_accepts short)),
    fun released => congrArg Host.Outcome.next (if_pos released)⟩

/-- Settles O31, by the branches of a tick of qualification; the bound is tested after acceptance. -/
theorem dbqualQualifiesThePress : Obligations.DbqualQualifiesThePress := by
  intro s hp hh st
  rw [← State.mask_eq]
  have tick : exec .dbqual s = .next _ :=
    congrArg Host.Outcome.next (dbqualOp_runs ((State.pchRuns_iff s).2 ⟨hp, hh⟩) st)
  rw [tick]
  refine ⟨fun same full => ?_, fun same short below => ?_, fun same short reached => ?_, fun moved released => ?_,
    fun moved pressed below => ?_, fun moved pressed reached => ?_⟩
  · rw [if_pos same, if_pos full]
  · rw [if_pos same, if_neg (Nat.not_le.2 short), abortAtBound_below below]
  · rw [if_pos same, if_neg (Nat.not_le.2 short), abortAtBound_reached reached]
    rfl
  · rw [if_neg moved, if_pos released, settleEntered_eq]
    rfl
  · rw [if_neg moved, if_neg pressed, abortAtBound_below below]
  · rw [if_neg moved, if_neg pressed, abortAtBound_reached reached]
    rfl

/-- Settles O32: a pressed read, a released read, and the one that completes the window, each with its bound. -/
theorem dbrelWaitsForTheRelease : Obligations.DbrelWaitsForTheRelease := by
  intro s hp hh st window
  rw [← State.mask_eq]
  have runs : s.pchRuns = true := (State.pchRuns_iff s).2 ⟨hp, hh⟩
  have tick : exec .dbrel s = .next (dbrelOp s) := rfl
  rw [tick]
  refine ⟨fun pressed below => ?_, fun pressed reached => ?_, fun released short below => ?_,
    fun released short reached => ?_, fun released full => ?_⟩
  · rw [dbrelOp_pressed runs st window pressed, abortAtBound_below below]
  · rw [dbrelOp_pressed runs st window pressed, abortAtBound_reached reached]
    rfl
  · rw [dbrelOp_counts runs st released short, abortAtBound_below below]
  · rw [dbrelOp_counts runs st released short, abortAtBound_reached reached]
    rfl
  · rw [dbrelOp_confirms runs st released full, settleEntered_eq]

/-- Settles O33: `DBABORT` is a reject, `clr` and the entry of the settle window; `ENABORT` has no other effect. -/
theorem boundsAbortWithoutAnEvent : Obligations.BoundsAbortWithoutAnEvent := by
  intro s
  rw [settleEntered_eq]
  exact ⟨rfl, rfl⟩

/-- Settles O34: the decoder's step leaves what the sequencer reads, and a tick of `INIT` holds the sequencer; in
qualification the latched mask is not empty by the premise. -/
theorem pressIsAcceptedOnlyAfterAStableRead : Obligations.PressIsAcceptedOnlyAfterAStableRead := by
  intro s t i rest cand hi hr h ne entered
  obtain ⟨u, hu, rfl⟩ := step_scheduled hi hr h
  rw [finishTick_pchSt, engines_eq] at entered
  have mask : u.mask = ~~~i.btnN &&& 0x3F#6 := by rw [State.mask_eq, hu.inp]
  obtain ⟨-, hold, -, -, -, -, idle, -⟩ | ⟨op, -, -, pcie, -, -, pchSt, pcif, -⟩ := hu.mode
  · obtain ⟨runs, -⟩ := pchStep_enters_dbRel (s := u.irPart (irStep u)) (by simp [State.irPart, idle]) entered
    have held : u.wires.hold = false := ((State.pchRuns_iff u).1 runs).2
    exact absurd (hold.symm.trans held) Bool.noConfusion
  · obtain ⟨runs, latched, ways⟩ := pchStep_enters_dbRel (s := u.irPart (irStep u)) (pchSt ▸ ne) entered
    have enabled : s.pcie = true := pcie ▸ ((State.pchRuns_iff u).1 runs).1
    rw [finishTick_dbCand, engines_eq, latched, show (u.irPart (irStep u)).mask = u.mask from rfl, ← mask]
    refine ⟨enabled, op, rfl, ?_⟩
    obtain ⟨st, same, full⟩ | ⟨st, flag, pressed, short⟩ := ways
    · have st' : s.pchSt = .dbQual := pchSt ▸ st
      have same' : s.dbCand = u.mask := hu.dbCand ▸ same
      exact ⟨same' ▸ cand (.inl st'), .inl ⟨st', same', hu.cfg ▸ hu.dbCnt ▸ full⟩⟩
    · exact ⟨pressed, .inr ⟨pchSt ▸ st, pcif ▸ flag, hu.cfg ▸ short⟩⟩

end Sys2Proof.Machine

/-! A confirmed release (41_debounce.md rules R136, R141): the ticks of the release wait while the button lines stay
released, the remote's line stays as it is and the host presents `NOP`; the run by induction over these ticks. -/

namespace Sys2Proof.Machine

open Sys2Proof

/-! ### A tick on still lines -/

/-- The lines of a tick in which nothing but the release happens, after the sample `irPrev` of the remote's line. -/
abbrev QuietRelease (irPrev : Bool) (i : Inputs) : Prop :=
  i.rst = false ∧ i.hostOp = 0b000#3 ∧ i.btnN = 0x3F#6 ∧ i.irIn = irPrev

/-- A valid configuration takes the scheduled lines through phases P1 and P2 and the end of the tick. -/
theorem step_scheduled_next {s : State} {i : Inputs} {rest : List Inputs} (hv : s.cfg.valid = true)
    (hi : s.inputs = i :: rest) (hr : i.rst = false) :
    ∃ u, HostDone s i u ∧ u.inputs = rest ∧ step s = .next (finishTick u) := by
  obtain ⟨u, hu⟩ := exec_next (decodeHost i.hostOp) (beginTick i { s with inputs := rest })
  obtain ⟨done, inputs, -⟩ := hostDone (s := s) rfl hu
  exact ⟨u, done, inputs, step_exec hv hi hr hu⟩

@[simp] theorem finishTick_inputs (u : State) : (finishTick u).inputs = u.inputs := by
  rw [finishTick_eq]
  exact enginesDone_keeps u State.inputs (fun _ _ => rfl) (fun _ _ => rfl)

/-- The time-out writes no wire: it posts nothing (43_ir_decoder.md rule R190). -/
theorem irtimeoutOp_wires (s : State) : (irtimeoutOp s).wires = s.wires := by
  unfold irtimeoutOp
  split
  · extract_lets counted idle
    split
    · split <;> rfl
    · rfl
  · rfl

/-- Without an edge the decoder's step posts nothing. -/
theorem irStep_posts {u : State} (fall : u.wires.fall = false) (rise : u.wires.rise = false) :
    (irStep u).wires.posts = u.wires.posts := by
  have hd : ¬ CaptureDue u := by simp [CaptureDue, fall, rise]
  rw [irStep_quiet hd, irtimeoutOp_wires]

/-- The state `u` between phases P2 and P3 of a quiet tick of the release wait in state `s`. -/
structure ReleaseTick (s u : State) : Prop where
  runs : u.pchRuns = true
  waits : u.pchSt = .dbRel
  released : u.mask = 0#6
  noPost : (irStep u).wires.posts = ⟨none, none, none, none⟩
  cfg : u.cfg = s.cfg
  dbCand : u.dbCand = s.dbCand
  dbCnt : u.dbCnt = s.dbCnt
  dbTot : u.dbTot = s.dbTot
  pcie : u.pcie = true
  irPrev : u.irPrev = s.irPrev
  evt : u.evt = s.evt

theorem HostDone.releaseTick {s u : State} {i : Inputs} (h : HostDone s i u) (quiet : QuietRelease s.irPrev i)
    (enabled : s.pcie = true) (waits : s.pchSt = .dbRel) : ReleaseTick s u := by
  obtain ⟨-, op, btn, ir⟩ := quiet
  obtain ⟨op', -⟩ | ⟨-, hold, -, pcie, -, -, pchSt, -, evt⟩ := h.mode
  · exact absurd (op.symm.trans op') (by decide)
  · have evt' : u.evt = s.evt := by
      obtain ⟨op', -⟩ | ⟨-, evt⟩ := evt
      · exact absurd (op.symm.trans op') (by decide)
      · exact evt
    have posts : (irStep u).wires.posts = u.wires.posts :=
      irStep_posts (by simp [h.fall, ir]) (by simp [h.rise, ir])
    exact {
      runs := (State.pchRuns_iff u).2 ⟨pcie.trans enabled, hold⟩
      waits := pchSt.trans waits
      released := by simp [State.mask_eq, h.inp, btn]
      noPost := posts.trans h.posts
      cfg := h.cfg
      dbCand := h.dbCand
      dbCnt := h.dbCnt
      dbTot := h.dbTot
      pcie := pcie.trans enabled
      irPrev := h.irPrev.trans ir
      evt := evt' }

/-! ### The engines of a quiet tick -/

section
variable {s u : State}

/-- A quiet tick that does not complete the window counts. -/
theorem ReleaseTick.engines_count (h : ReleaseTick s u) (short : s.dbCnt + 1 < s.cfg.tDebounce)
    (below : ∀ b, s.cfg.tDbMax = some b → s.dbTot + 1 < b) :
    enginesDone u = { irStep u with dbTot := s.dbTot + 1, dbCnt := s.dbCnt + 1 } := by
  rw [← h.cfg, ← h.dbCnt] at short
  rw [← h.cfg, ← h.dbTot] at below
  rw [engines_eq, pchStep_of_dbRel (s := u.irPart (irStep u)) h.waits,
    dbrelOp_counts (s := u.irPart (irStep u)) h.runs h.waits h.released short, abortAtBound_below below, ← h.dbTot,
    ← h.dbCnt]
  exact congrArg (fun t : State => { t with dbTot := u.dbTot + 1, dbCnt := u.dbCnt + 1 }) (irStep_frame u).symm

/-- The quiet tick that completes the window posts the latched mask and opens the settle window. -/
theorem ReleaseTick.engines_confirm (h : ReleaseTick s u) (full : s.cfg.tDebounce ≤ s.dbCnt + 1)
    (settle : 1 < s.cfg.tSettle) :
    (enginesDone u).pchSt = .enSettle
      ∧ (enginesDone u).wires.posts = ⟨some (s.dbCand.setWidth 8), none, none, none⟩ := by
  rw [← h.cfg, ← h.dbCnt] at full
  rw [← h.cfg] at settle
  have noPost : (u.irPart (irStep u)).wires.posts = ⟨none, none, none, none⟩ :=
    (congrArg (fun t : State => t.wires.posts) (irStep_frame u)).symm.trans h.noPost
  obtain ⟨st, posts⟩ := dbrelOp_posts (s := u.irPart (irStep u)) h.runs h.waits h.released full settle
  rw [engines_eq, pchStep_of_dbRel (s := u.irPart (irStep u)) h.waits, posts, noPost, ← h.dbCand]
  exact ⟨st, rfl⟩
end

/-! ### The release wait, tick by tick -/

/-- `s` waits for the release, and the lines `ins` complete its window before the total bound is passed; `rest` is the
schedule after them. -/
structure Releasing (s : State) (ins rest : List Inputs) : Prop where
  valid : s.cfg.valid = true
  settle : 1 < s.cfg.tSettle
  enabled : s.pcie = true
  waits : s.pchSt = .dbRel
  window : s.dbCnt + ins.length = s.cfg.tDebounce
  bound : ∀ b, s.cfg.tDbMax = some b → s.dbTot + ins.length ≤ b
  inputs : s.inputs = ins ++ rest
  quiet : ∀ i ∈ ins, QuietRelease s.irPrev i

section
variable {s : State} {i : Inputs} {ins rest : List Inputs}

/-- The next tick of a wait for the release, up to the engines. -/
theorem Releasing.tick (h : Releasing s (i :: ins) rest) :
    ∃ u, ReleaseTick s u ∧ u.inputs = ins ++ rest ∧ step s = .next (finishTick u) := by
  have quiet := h.quiet i List.mem_cons_self
  obtain ⟨u, done, inputs, hs⟩ := step_scheduled_next h.valid h.inputs quiet.1
  exact ⟨u, done.releaseTick quiet h.enabled h.waits, inputs, hs⟩

/-- A tick before the last leaves the wait one tick shorter, the latched mask and the mailbox as they were. -/
theorem Releasing.step_counts (h : Releasing s (i :: ins) rest) (more : ins ≠ []) :
    ∃ t, step s = .next t ∧ Releasing t ins rest ∧ t.dbCand = s.dbCand ∧ t.evt = s.evt := by
  obtain ⟨u, tick, inputs, hs⟩ := h.tick
  have length : 0 < ins.length := List.length_pos_of_ne_nil more
  have window := h.window
  have bound := h.bound
  rw [List.length_cons] at window bound
  have engines := tick.engines_count (by omega) fun b hb => by have := bound b hb; omega
  have dbCnt : (finishTick u).dbCnt = s.dbCnt + 1 := by rw [finishTick_dbCnt, engines]
  have dbTot : (finishTick u).dbTot = s.dbTot + 1 := by rw [finishTick_dbTot, engines]
  have waits : (finishTick u).pchSt = .dbRel := by
    rw [finishTick_pchSt, engines]
    exact (irStep_pchSt u).trans tick.waits
  have dbCand : (finishTick u).dbCand = s.dbCand := by
    rw [finishTick_dbCand, engines]
    exact ((irStep_frame u).keeps State.dbCand fun _ _ => rfl).trans tick.dbCand
  have evt : (finishTick u).evt = s.evt := by
    rw [finishTick_eq, engines]
    dsimp only
    rw [tick.noPost]
    exact ((irStep_frame u).keeps State.evt fun _ _ => rfl).trans tick.evt
  have cfg : (finishTick u).cfg = s.cfg := (finishTick_cfg u).trans tick.cfg
  refine ⟨finishTick u, hs, ?_, dbCand, evt⟩
  exact {
    valid := cfg ▸ h.valid
    settle := cfg ▸ h.settle
    enabled := (finishTick_pcie u).trans tick.pcie
    waits := waits
    window := by rw [dbCnt, cfg]; omega
    bound := fun b hb => by have := bound b (cfg ▸ hb); omega
    inputs := (finishTick_inputs u).trans inputs
    quiet := by
      rw [finishTick_irPrev, tick.irPrev]
      exact fun j hj => h.quiet j (List.mem_cons_of_mem i hj) }

/-- The last tick puts the latched mask into the mailbox. -/
theorem Releasing.step_confirms (h : Releasing s [i] rest) :
    ∃ t, step s = .next t ∧ t.evt = s.dbCand.setWidth 8 ∧ t.pchSt = .enSettle ∧ t.inputs = rest := by
  obtain ⟨u, tick, inputs, hs⟩ := h.tick
  obtain ⟨st, posts⟩ := tick.engines_confirm h.window.ge h.settle
  refine ⟨finishTick u, hs, ?_, (finishTick_pchSt u).trans st, (finishTick_inputs u).trans inputs⟩
  rw [finishTick_eq]
  dsimp only
  rw [posts]
  rfl
end

/-- A wait for the release posts in exactly the tick that completes it, by induction on the ticks still to come. -/
theorem Releasing.run {ins rest : List Inputs} (some_left : ins ≠ []) {s : State} (h : Releasing s ins rest) :
    (∃ t : State, Sys2Proof.core.run ins.length s = .next t
        ∧ t.evt = s.dbCand.setWidth 8 ∧ t.pchSt = .enSettle ∧ t.inputs = rest)
      ∧ ∀ k < ins.length, ∃ u : State, Sys2Proof.core.run k s = .next u ∧ u.evt = s.evt ∧ u.pchSt = .dbRel := by
  induction ins generalizing s with
  | nil => exact absurd rfl some_left
  | cons i ins ih =>
    by_cases last : ins = []
    · subst last
      obtain ⟨t, hs, posted⟩ := h.step_confirms
      refine ⟨⟨t, run_succ hs, posted⟩, fun k hk => ?_⟩
      obtain rfl : k = 0 := Nat.lt_one_iff.1 hk
      exact ⟨s, rfl, rfl, h.waits⟩
    · obtain ⟨t, hs, waiting, cand, evt⟩ := h.step_counts last
      obtain ⟨⟨v, hv, posted⟩, before⟩ := ih last waiting
      rw [cand] at posted
      refine ⟨⟨v, (run_succ hs).trans hv, posted⟩, fun k hk => ?_⟩
      cases k with
      | zero => exact ⟨s, rfl, rfl, h.waits⟩
      | succ k =>
        obtain ⟨w, hw, evt', st⟩ := before k (Nat.lt_of_succ_lt_succ hk)
        exact ⟨w, (run_succ hs).trans hw, evt'.trans evt, st⟩

/-! ### The obligation -/

/-- Settles O35: the scheduled lines are as many as the window still needs. -/
theorem confirmedReleasePostsTheLatchedMask : Obligations.ConfirmedReleasePostsTheLatchedMask := by
  intro s ins rest valid settle enabled waits short bound inputs length quiet
  rw [← length] at bound ⊢
  have some_left : ins ≠ [] := List.ne_nil_of_length_pos (by omega)
  exact Releasing.run some_left ⟨valid, settle, enabled, waits, by omega, bound, inputs, quiet⟩

end Sys2Proof.Machine

/-! The statements of 42_quadrature.md: what a format-Q word does to its knob (rules R162 to R165, R171), the knobs'
sample (rules R161, R166), and the settle window in front of it (rules R160, R167). First a transition by the count it
makes; then the format-Q words as transitions. -/

namespace Sys2Proof.Machine

open Sys2Proof

/-! ### The count of a transition, and its knob's registers and post -/

theorem countBlip_forward {old new : Quadrant} (quarter : new - old = 1#2) (b : Int) : countBlip old new b = b + 1 :=
  if_pos quarter

theorem countBlip_reverse {old new : Quadrant} (quarter : new - old = 3#2) (b : Int) : countBlip old new b = b - 1 := by
  simp [countBlip, quarter]

theorem countBlip_still {old new : Quadrant} (still : new - old ≠ 1#2 ∧ new - old ≠ 3#2) (b : Int) :
    countBlip old new b = b := by
  simp [countBlip, still]

/-- A count that makes no full detent in either direction. -/
abbrev Partway (c : Config) (b : Int) : Prop := b ≠ c.blipsPerDetent ∧ b ≠ -(c.blipsPerDetent : Int)

theorem detentButton_up (c : Config) (k : Knob) : detentButton c k c.blipsPerDetent = some (increaseButton k) :=
  if_pos rfl

/-- A detent of at least one blip tells a decrease from an increase. -/
theorem detentButton_down {c : Config} (pos : 0 < c.blipsPerDetent) (k : Knob) :
    detentButton c k (-(c.blipsPerDetent : Int)) = some (decreaseButton k) := by
  have opposite : -(c.blipsPerDetent : Int) ≠ c.blipsPerDetent := by omega
  simp [detentButton, opposite]

theorem detentButton_partway {c : Config} {b : Int} (partway : Partway c b) (k : Knob) : detentButton c k b = none := by
  simp [detentButton, partway]

theorem knobAfter_seeds {c : Config} {e : EncState} (unseeded : e.initialized = false) (old new : Quadrant) :
    knobAfter c old new e = ⟨new, e.blips, true⟩ := by
  simp [knobAfter, unseeded]

theorem knobAfter_detent {c : Config} {e : EncState} {old new : Quadrant} (seeded : e.initialized = true)
    (detent : countBlip old new e.blips = c.blipsPerDetent ∨ countBlip old new e.blips = -(c.blipsPerDetent : Int)) :
    knobAfter c old new e = ⟨new, 0, true⟩ := by
  have zeroed : storedBlips c new (countBlip old new e.blips) = 0 := if_pos (or_assoc.1 (.inl detent))
  simp [knobAfter, seeded, zeroed]

theorem knobAfter_partway {c : Config} {e : EncState} {old new : Quadrant} (seeded : e.initialized = true)
    (partway : Partway c (countBlip old new e.blips)) :
    knobAfter c old new e = ⟨new, if new = 0#2 then 0 else countBlip old new e.blips, true⟩ := by
  simp [knobAfter, seeded, storedBlips, partway]

theorem knobPost_unseeded {c : Config} {e : EncState} (unseeded : e.initialized = false) (k : Knob)
    (old new : Quadrant) : knobPost c k old new e = none := by
  simp [knobPost, unseeded]

theorem knobPost_seeded {c : Config} {e : EncState} (seeded : e.initialized = true) (k : Knob) (old new : Quadrant) :
    knobPost c k old new e = (detentButton c k (countBlip old new e.blips)).map LogicalButton.code :=
  if_pos seeded

/-! ### A transition of either knob -/

/-- A post, if there is one. -/
def State.withPostOf (s : State) (p : PostPort) : Option Byte → State
  | some v => s.withPost p v
  | none => s

/-- Everything a transition of either knob can do: its registers, then its post. -/
theorem transition_eq (k : Knob) (old new : Quadrant) (s : State) :
    transition k old new s = (s.withEnc k (knobAfter s.cfg old new (s.enc k))).withPostOf (knobPort k)
      (knobPost s.cfg k old new (s.enc k)) := by
  cases k with
  | A =>
    rw [transition_A, State.enc_A]
    cases knobPost s.cfg .A old new s.encA <;> rfl
  | B =>
    rw [transition_B, State.enc_B]
    cases knobPost s.cfg .B old new s.encB <;> rfl

/-- The first sample of a knob (rule R162). -/
theorem transition_seeds {k : Knob} {s : State} (unseeded : (s.enc k).initialized = false) (old new : Quadrant) :
    transition k old new s = s.withEnc k ⟨new, (s.enc k).blips, true⟩ := by
  rw [transition_eq, knobPost_unseeded unseeded, knobAfter_seeds unseeded]
  rfl

/-- A full detent forward posts the knob's increase (rule R164). -/
theorem transition_increases {k : Knob} {old new : Quadrant} {s : State} (seeded : (s.enc k).initialized = true)
    (detent : countBlip old new (s.enc k).blips = s.cfg.blipsPerDetent) :
    transition k old new s = (s.withEnc k ⟨new, 0, true⟩).withPost (knobPort k) (increaseButton k).code := by
  rw [transition_eq, knobPost_seeded seeded, knobAfter_detent seeded (.inl detent), detent, detentButton_up]
  rfl

/-- A full detent in reverse posts the knob's decrease (rule R164). -/
theorem transition_decreases {k : Knob} {old new : Quadrant} {s : State} (seeded : (s.enc k).initialized = true)
    (pos : 0 < s.cfg.blipsPerDetent)
    (detent : countBlip old new (s.enc k).blips = -(s.cfg.blipsPerDetent : Int)) :
    transition k old new s = (s.withEnc k ⟨new, 0, true⟩).withPost (knobPort k) (decreaseButton k).code := by
  rw [transition_eq, knobPost_seeded seeded, knobAfter_detent seeded (.inr detent), detent, detentButton_down pos]
  rfl

/-- Short of a detent the count is stored, re-zeroed at quadrant 0 (rule R165). -/
theorem transition_partway {k : Knob} {old new : Quadrant} {s : State} (seeded : (s.enc k).initialized = true)
    (partway : Partway s.cfg (countBlip old new (s.enc k).blips)) :
    transition k old new s
      = s.withEnc k ⟨new, if new = 0#2 then 0 else countBlip old new (s.enc k).blips, true⟩ := by
  rw [transition_eq, knobPost_seeded seeded, knobAfter_partway seeded partway, detentButton_partway partway]
  rfl

/-! ### The format-Q words -/

/-- The two fields of a format-Q word `{old, new}` (30_encoding.md rule R90). -/
def wordOld (w : QuadWord) : Quadrant := w.extractLsb' 2 2

def wordNew (w : QuadWord) : Quadrant := w.extractLsb' 0 2

@[simp] theorem wordOld_append (old new : Quadrant) : wordOld (old ++ new) = old := BitVec.extractLsb'_append_eq_left

@[simp] theorem wordNew_append (old new : Quadrant) : wordNew (old ++ new) = new := BitVec.extractLsb'_append_eq_right

/-- Whatever row a format-Q word belongs to, its effect is the transition between its two fields. -/
theorem exec_decodeQuad (k : Knob) (w : QuadWord) (s : State) :
    exec (decodeQuad k w) s = .next (transition k (wordOld w) (wordNew w) s) := by
  obtain ⟨n, hn, rfl⟩ : ∃ n < 16, w = BitVec.ofNat 4 n := ⟨w.toNat, w.isLt, by simp⟩
  interval_cases n <;> rfl

/-- The row of a word as the obligations list it: its operation and its new quadrant. -/
def quadRow (k : Knob) (w : QuadWord) : Instr × Quadrant := (decodeQuad k w, wordNew w)

/-- An operation from a list of rows is a transition that moves as all the words of the list do. -/
theorem exec_listedWord {k : Knob} {words : List QuadWord} {moved : Quadrant → Prop}
    (moves : ∀ w ∈ words, moved (wordNew w - wordOld w)) {i : Instr} {new : Quadrant}
    (listed : (i, new) ∈ words.map (quadRow k)) (s : State) :
    ∃ old, moved (new - old) ∧ exec i s = .next (transition k old new s) := by
  obtain ⟨w, hw, row⟩ := List.mem_map.1 listed
  cases row
  exact ⟨wordOld w, moves w hw, exec_decodeQuad k w s⟩

theorem increaseButton_code (k : Knob) : (increaseButton k).code = if k = .A then 0x04#8 else 0x20#8 := by
  cases k <;> rfl

theorem decreaseButton_code (k : Knob) : (decreaseButton k).code = if k = .A then 0x08#8 else 0x10#8 := by
  cases k <;> rfl

/-! ### The obligations on one word -/

/-- Settles O36: a forward word counts up, and a count below a detent cannot reach the detent in reverse. -/
theorem forwardWordsCountUp : Obligations.ForwardWordsCountUp := by
  intro k s i new listed seeded ⟨low, high⟩
  obtain ⟨old, quarter, run⟩ := exec_listedWord (words := [0b0001#4, 0b0110#4, 0b1011#4, 0b1100#4])
    (moved := (· = 1#2)) (by decide) listed s
  have counted := countBlip_forward quarter (s.enc k).blips
  rw [run, ← counted, ← increaseButton_code]
  refine ⟨fun detent => congrArg _ (transition_increases seeded detent), fun short => ?_⟩
  exact congrArg _ (transition_partway seeded ⟨short, by omega⟩)

/-- Settles O37: a reverse word counts down, and a count below a detent cannot reach the detent forward. -/
theorem reverseWordsCountDown : Obligations.ReverseWordsCountDown := by
  intro k s i new listed seeded ⟨low, high⟩
  obtain ⟨old, quarter, run⟩ := exec_listedWord (words := [0b0011#4, 0b0100#4, 0b1001#4, 0b1110#4])
    (moved := (· = 3#2)) (by decide) listed s
  have counted := countBlip_reverse quarter (s.enc k).blips
  have pos : 0 < s.cfg.blipsPerDetent := by omega
  rw [run, ← counted, ← decreaseButton_code]
  refine ⟨fun detent => congrArg _ (transition_decreases seeded pos detent), fun short => ?_⟩
  exact congrArg _ (transition_partway seeded ⟨by omega, short⟩)

/-- Settles O38: no movement and a missed edge leave the count, which is below a detent as it was. -/
theorem sameAndSkipWordsCountNothing : Obligations.SameAndSkipWordsCountNothing := by
  intro k s i new listed seeded ⟨low, high⟩
  obtain ⟨old, still, run⟩ := exec_listedWord
    (words := [0b0000#4, 0b0101#4, 0b1010#4, 0b1111#4, 0b0010#4, 0b0111#4, 0b1000#4, 0b1101#4])
    (moved := fun d => d ≠ 1#2 ∧ d ≠ 3#2) (by decide) listed s
  have counted := countBlip_still still (s.enc k).blips
  have partway : Partway s.cfg (countBlip old new (s.enc k).blips) := ⟨by omega, by omega⟩
  rw [run, transition_partway seeded partway, counted]

/-- Settles O39: every word, and `QSTEP`, is a transition, and a transition seeds. -/
theorem firstSampleSeedsTheKnob : Obligations.FirstSampleSeedsTheKnob := by
  intro k s unseeded
  exact ⟨fun w => (exec_decodeQuad k w s).trans (congrArg _ (transition_seeds unseeded _ _)),
    congrArg _ (transition_seeds unseeded _ _)⟩

/-- Settles O40: both are the transition between the stored and the sampled quadrant. -/
theorem qstepRunsTheWordOfItsTransition : Obligations.QstepRunsTheWordOfItsTransition := by
  refine ⟨fun k s _ => ⟨_, rfl, ?_⟩, by decide,
    fun a b => ⟨BitVec.extractLsb'_append_eq_right, BitVec.extractLsb'_append_eq_left⟩⟩
  refine (exec_decodeQuad k _ s).trans ?_
  rw [wordOld_append, wordNew_append]
  rfl

/-! ### The obligations on the sample of both knobs -/

/-- Settles O41: `ensampleOp` is the composition of the two steps. -/
theorem ensampleStepsAThenB : Obligations.EnsampleStepsAThenB :=
  fun s => ⟨qstepOp .A s, qstepOp .B (qstepOp .A s), rfl, rfl, rfl⟩

/-- The step of knob A does not read knob B, whose registers may be any. -/
theorem qstepOp_A_other (s : State) (e : EncState) :
    qstepOp .A { s with encB := e } = { qstepOp .A s with encB := e } := by
  unfold qstepOp
  rw [transition_A, transition_A]
  rfl

/-- The step of knob B does not read knob A, whose registers may be any. -/
theorem qstepOp_B_other (s : State) (e : EncState) :
    qstepOp .B { s with encA := e } = { qstepOp .B s with encA := e } := by
  unfold qstepOp
  rw [transition_B, transition_B]
  rfl

/-- Settles O42: a transition writes its own knob's registers and port, and reads its own knob. -/
theorem knobsShareNoState : Obligations.KnobsShareNoState := by
  intro s t e
  constructor
  · rintro ⟨⟩
    refine ⟨?_, ?_, congrArg Host.Outcome.next (qstepOp_A_other s e)⟩ <;>
      rw [qstepOp, transition_A]
  · rintro ⟨⟩
    refine ⟨?_, ?_, congrArg Host.Outcome.next (qstepOp_B_other s e)⟩ <;>
      rw [qstepOp, transition_B]

/-! ### The obligation on a detent of four blips -/

/-- The knob of `s` at the quadrant and the count given. -/
def State.turnedTo (s : State) (k : Knob) (q : Quadrant) (b : Int) : State := s.withEnc k ⟨q, b, true⟩

theorem State.turnedTo_enc (s : State) (k : Knob) (q : Quadrant) (b : Int) :
    (s.turnedTo k q b).enc k = ⟨q, b, true⟩ :=
  State.withEnc_enc s k _

theorem State.turnedTo_cfg (s : State) (k : Knob) (q : Quadrant) (b : Int) : (s.turnedTo k q b).cfg = s.cfg :=
  State.withEnc_cfg s k _

/-- A word that makes no full detent turns the knob. -/
theorem exec_turnedTo_partway {s : State} {b b' : Int} {w : QuadWord}
    (counted : countBlip (wordOld w) (wordNew w) b = b') (partway : Partway s.cfg b') (k : Knob) (q : Quadrant) :
    exec (decodeQuad k w) (s.turnedTo k q b)
      = .next (s.turnedTo k (wordNew w) (if wordNew w = 0#2 then 0 else b')) := by
  subst counted
  rw [exec_decodeQuad, transition_partway]
  · rw [State.turnedTo_enc, State.turnedTo, State.withEnc_withEnc]
    rfl
  · rw [State.turnedTo_enc]
  · rwa [State.turnedTo_enc, State.turnedTo_cfg]

/-- A word that completes a detent forward turns the knob and posts its increase. -/
theorem exec_turnedTo_increases {s : State} {b : Int} {w : QuadWord}
    (detent : countBlip (wordOld w) (wordNew w) b = s.cfg.blipsPerDetent) (k : Knob) (q : Quadrant) :
    exec (decodeQuad k w) (s.turnedTo k q b)
      = .next ((s.turnedTo k (wordNew w) 0).withPost (knobPort k) (increaseButton k).code) := by
  rw [exec_decodeQuad, transition_increases]
  · rw [State.turnedTo, State.withEnc_withEnc]
    rfl
  · rw [State.turnedTo_enc]
  · rwa [State.turnedTo_enc, State.turnedTo_cfg]

/-- Settles O43: three quarters are counted and the fourth makes the detent; the skips count nothing. -/
theorem fourQuartersMakeOneDetent : Obligations.FourQuartersMakeOneDetent := by
  intro k s four knob
  have home : s.turnedTo k 0#2 0 = s := by rw [State.turnedTo, ← knob, State.withEnc_enc_self]
  have below (b : Int) (low : -4 < b) (high : b < 4) : Partway s.cfg b := by
    unfold Partway
    omega
  have quarter1 : exec (.qFwd01 k) (s.turnedTo k 0#2 0) = .next (s.turnedTo k 1#2 1) :=
    exec_turnedTo_partway (w := 0b0001#4) rfl (below 1 (by decide) (by decide)) k 0#2
  have quarter2 : exec (.qFwd12 k) (s.turnedTo k 1#2 1) = .next (s.turnedTo k 2#2 2) :=
    exec_turnedTo_partway (w := 0b0110#4) rfl (below 2 (by decide) (by decide)) k 1#2
  have quarter3 : exec (.qFwd23 k) (s.turnedTo k 2#2 2) = .next (s.turnedTo k 3#2 3) :=
    exec_turnedTo_partway (w := 0b1011#4) rfl (below 3 (by decide) (by decide)) k 2#2
  have quarter4 : exec (.qFwd30 k) (s.turnedTo k 3#2 3)
      = .next ((s.turnedTo k 0#2 0).withPost (knobPort k) (increaseButton k).code) :=
    exec_turnedTo_increases (w := 0b1100#4) (by rw [four]; rfl) k 3#2
  have skip : exec (.qSkip02 k) (s.turnedTo k 0#2 0) = .next (s.turnedTo k 2#2 0) :=
    exec_turnedTo_partway (w := 0b0010#4) rfl (below 0 (by decide) (by decide)) k 0#2
  have back : exec (.qSkip20 k) (s.turnedTo k 2#2 0) = .next (s.turnedTo k 0#2 0) :=
    exec_turnedTo_partway (w := 0b1000#4) rfl (below 0 (by decide) (by decide)) k 2#2
  rw [home] at quarter1 quarter4 skip back
  rw [runOps_cons quarter1, runOps_cons quarter2, runOps_cons quarter3, runOps_cons quarter4, runOps_cons skip,
    runOps_cons back, increaseButton_code]
  exact ⟨rfl, rfl⟩

/-! ### The settle window -/

/-- The two tests that end a counted tick of the settle window: completion, then the total bound (rules R160, R167). -/
def settleTests (s : State) : State :=
  if s.cfg.tSettle ≤ s.enCnt then ensampleOp s
  else if boundReached s.enTot s.cfg.tEnMax then enabortOp s
  else s

theorem settleTests_samples {s : State} (full : s.cfg.tSettle ≤ s.enCnt) : settleTests s = ensampleOp s := if_pos full

theorem settleTests_aborts {s : State} (short : s.enCnt < s.cfg.tSettle)
    (reached : ∃ b, s.cfg.tEnMax = some b ∧ b ≤ s.enTot) :
    settleTests s = enabortOp s :=
  (if_neg (Nat.not_le.2 short)).trans (if_pos ((boundReached_iff _ _).2 reached))

theorem settleTests_waits {s : State} (short : s.enCnt < s.cfg.tSettle)
    (below : ∀ b, s.cfg.tEnMax = some b → s.enTot < b) :
    settleTests s = s := by
  rw [settleTests, if_neg (Nat.not_le.2 short), (boundReached_eq_false_iff _ _).2 below]
  rfl

/-- A later tick of the settle window (rule R160): an equal read is counted, a changed one is the first of a new
window. -/
theorem ensettleOp_runs {s : State} (runs : s.pchRuns = true) (st : s.pchSt = .enSettle) :
    ensettleOp s =
      if s.wires.inp.enc = s.enRaw then settleTests { s with enTot := s.enTot + 1, enCnt := s.enCnt + 1 }
      else settleTests { s with enTot := s.enTot + 1, enCnt := 1, enRaw := s.wires.inp.enc } := by
  have entered : ensettleOp s = settleTests { s with
      enTot := s.enTot + 1
      enCnt := if s.wires.inp.enc = s.enRaw then s.enCnt + 1 else 1
      enRaw := s.wires.inp.enc } := if_pos (by simp [runs, st])
  rw [entered]
  split
  · rename_i same
    rw [same]
  · rfl

/-- Settles O44: an equal and a changed read, each with the three ends of a counted tick. -/
theorem ensettleWaitsForAStillPort : Obligations.EnsettleWaitsForAStillPort := by
  intro s hp hh st
  have tick : exec .ensettle s = .next _ :=
    congrArg Host.Outcome.next (ensettleOp_runs ((State.pchRuns_iff s).2 ⟨hp, hh⟩) st)
  rw [tick]
  refine ⟨fun same full => ?_, fun same short below => ?_, fun same short reached => ?_, fun moved short below => ?_,
    fun moved short reached => ?_, fun moved full => ?_⟩
  · rw [if_pos same, settleTests_samples full]
    rfl
  · rw [if_pos same, settleTests_waits short below]
  · rw [if_pos same, settleTests_aborts short reached]
    rfl
  · rw [if_neg moved, settleTests_waits short below]
  · rw [if_neg moved, settleTests_aborts short reached]
    rfl
  · rw [if_neg moved, settleTests_samples full]
    rfl

end Sys2Proof.Machine

/-! The statements of 43_ir_decoder.md: the low pulses and their symbols (rules R181 to R186), the completed packet
(rules R187, R188), the release wait (rule R189) and the time-out (rules R190, R191); then the ticks of a line without
edges, by induction over these ticks (rules R190, R195), and the only way out of `IR_IDLE` (rule R181). -/

namespace Sys2Proof.Machine

open Sys2Proof

/-! ### The time-out -/

theorem State.irRuns_iff (s : State) : s.irRuns = true ↔ s.icie = true ∧ s.wires.hold = false := by simp [State.irRuns]

/-- The guard of rule R190: the decoder steps outside `IR_IDLE`, in a tick without a capture. -/
structure TimeoutRuns (s : State) : Prop where
  runs : s.irRuns = true
  noCapture : s.wires.cap = none
  busy : s.irSt ≠ .idle

theorem TimeoutRuns.test {s : State} (h : TimeoutRuns s) :
    (s.irRuns && s.wires.cap.isNone && irBusy s.irSt) = true := by
  simp [h.runs, h.noCapture, h.busy, irBusy]

/-- A tick before `T_TIMEOUT` counts. -/
theorem irtimeoutOp_counts {s : State} (h : TimeoutRuns s) (short : s.irCnt + 1 < s.cfg.tTimeout) :
    irtimeoutOp s = { s with irCnt := s.irCnt + 1 } :=
  (if_pos h.test).trans (if_neg (Nat.not_le.2 short))

/-- The tick that reaches `T_TIMEOUT` leaves for `IR_IDLE`, with the reject of the state before it, if it has one. -/
theorem irtimeoutOp_expires {s : State} (h : TimeoutRuns s) (full : s.cfg.tTimeout ≤ s.irCnt + 1) :
    irtimeoutOp s = { s with
      irCnt := s.irCnt + 1
      irSt := .idle
      ices := false
      out := { s.out with rejects := s.out.rejects ++ (timeoutCause s.irSt).toList } } := by
  rw [irtimeoutOp, if_pos h.test]
  dsimp only
  rw [if_pos full]
  cases timeoutCause s.irSt with
  | none => simp
  | some c => rfl

/-- In `IR_IDLE` nothing is timed. -/
theorem irtimeoutOp_idle {s : State} (idle : s.irSt = .idle) : irtimeoutOp s = s :=
  if_neg (by simp [idle, irBusy])

/-- A frame that breaks off is incomplete, and frame sync ends as listening; the release wait ends without a reject. -/
theorem timeoutCause_toList (st : IrState) :
    (timeoutCause st).toList =
      if st = .bitGap ∨ st = .bitLow then [.incomplete]
      else if st = .syncLow ∨ st = .syncGap then [.listen]
      else [] := by
  cases st <;> decide

/-- Settles O54: the tick counts, reaches `T_TIMEOUT`, or finds the decoder idle. -/
theorem irtimeoutReturnsToIdle : Obligations.IrtimeoutReturnsToIdle := by
  intro s enabled held noCapture
  have runs (busy : s.irSt ≠ .idle) : TimeoutRuns s := ⟨s.irRuns_iff.2 ⟨enabled, held⟩, noCapture, busy⟩
  refine ⟨fun busy short => congrArg Host.Outcome.next (irtimeoutOp_counts (runs busy) short), fun busy full => ?_,
    fun idle => congrArg Host.Outcome.next (irtimeoutOp_idle idle)⟩
  rw [← timeoutCause_toList]
  exact congrArg Host.Outcome.next (irtimeoutOp_expires (runs busy) full)

/-! ### A line without edges, tick by tick -/

/-- The lines of a tick without an edge, after the sample `irPrev` of the remote's line: no reset, no `INIT`. -/
abbrev Edgeless (irPrev : Bool) (i : Inputs) : Prop := i.rst = false ∧ i.hostOp ≠ 0b001#3 ∧ i.irIn = irPrev

/-- The end of a tick leaves the decoder's registers as the decoder's step did. -/
theorem finishTick_decoderRegs (u : State) :
    (finishTick u).irSt = (irStep u).irSt ∧ (finishTick u).irCnt = (irStep u).irCnt
      ∧ (finishTick u).ices = (irStep u).ices := by
  have kept : (enginesDone u).decoder = (irStep u).decoder := pchStep_decoder (irStep u)
  exact ⟨congrArg DecoderRegs.irSt kept, congrArg DecoderRegs.irCnt kept, congrArg DecoderRegs.ices kept⟩

/-- `s` after `CAPTURE` and `WIDTH` in a tick without a capture. -/
def State.uncaptured (s : State) : State := { s with wires := { s.wires with cap := none, width := none } }

/-- The state `u` between phases P2 and P3 of an edgeless tick in state `s`, outside `IR_IDLE`. -/
structure SilentTick (s u : State) : Prop where
  timesOut : irStep u = irtimeoutOp u.uncaptured
  guard : TimeoutRuns u.uncaptured
  cfg : u.cfg = s.cfg
  irSt : u.irSt = s.irSt
  irCnt : u.irCnt = s.irCnt
  icie : u.icie = s.icie
  irPrev : u.irPrev = s.irPrev

theorem HostDone.silentTick {s u : State} {i : Inputs} (h : HostDone s i u) (edgeless : Edgeless s.irPrev i)
    (enabled : s.icie = true) (busy : s.irSt ≠ .idle) : SilentTick s u := by
  obtain ⟨-, notInit, still⟩ := edgeless
  obtain ⟨init, -⟩ | ⟨-, hold, icie, -, -, irSt, -⟩ := h.mode
  · exact absurd init notInit
  · exact {
      timesOut := irStep_quiet (by simp [CaptureDue, h.fall, h.rise, still])
      guard := ⟨u.irRuns_iff.2 ⟨icie.trans enabled, hold⟩, rfl, irSt.trans_ne busy⟩
      cfg := h.cfg
      irSt := irSt
      irCnt := h.irCnt
      icie := icie
      irPrev := h.irPrev.trans still }

section
variable {s u : State}

/-- An edgeless tick before `T_TIMEOUT` counts and leaves the decoder in its state. -/
theorem SilentTick.counts (h : SilentTick s u) (short : s.irCnt + 1 < s.cfg.tTimeout) :
    (finishTick u).irSt = s.irSt ∧ (finishTick u).irCnt = s.irCnt + 1 := by
  rw [← h.cfg, ← h.irCnt] at short
  obtain ⟨irSt, irCnt, -⟩ := finishTick_decoderRegs u
  rw [h.timesOut, irtimeoutOp_counts h.guard short] at irSt irCnt
  exact ⟨irSt.trans h.irSt, irCnt.trans (congrArg (· + 1) h.irCnt)⟩

/-- The edgeless tick that reaches `T_TIMEOUT` returns the decoder to `IR_IDLE`, with the falling edge selected. -/
theorem SilentTick.expires (h : SilentTick s u) (full : s.cfg.tTimeout ≤ s.irCnt + 1) :
    (finishTick u).irSt = .idle ∧ (finishTick u).ices = false := by
  rw [← h.cfg, ← h.irCnt] at full
  obtain ⟨irSt, -, ices⟩ := finishTick_decoderRegs u
  rw [h.timesOut, irtimeoutOp_expires h.guard full] at irSt ices
  exact ⟨irSt, ices⟩
end

/-- The decoder waits in `s`, outside `IR_IDLE`, and the edgeless lines `ins` are the silence that is left to
`T_TIMEOUT`; `rest` is the schedule after them. -/
structure Silent (s : State) (ins rest : List Inputs) : Prop where
  valid : s.cfg.valid = true
  enabled : s.icie = true
  busy : s.irSt ≠ .idle
  window : s.irCnt + ins.length = s.cfg.tTimeout
  inputs : s.inputs = ins ++ rest
  edgeless : ∀ i ∈ ins, Edgeless s.irPrev i

section
variable {s : State} {i : Inputs} {ins rest : List Inputs}

/-- The next tick of a silence, up to the engines. -/
theorem Silent.tick (h : Silent s (i :: ins) rest) :
    ∃ u, SilentTick s u ∧ u.inputs = ins ++ rest ∧ step s = .next (finishTick u) := by
  have edgeless := h.edgeless i List.mem_cons_self
  obtain ⟨u, done, inputs, hs⟩ := step_scheduled_next h.valid h.inputs edgeless.1
  exact ⟨u, done.silentTick edgeless h.enabled h.busy, inputs, hs⟩

/-- A tick before the last leaves the silence one tick shorter and the decoder in its state. -/
theorem Silent.step_counts (h : Silent s (i :: ins) rest) (more : ins ≠ []) :
    ∃ t, step s = .next t ∧ Silent t ins rest ∧ t.irSt = s.irSt := by
  obtain ⟨u, tick, inputs, hs⟩ := h.tick
  have left : 0 < ins.length := List.length_pos_of_ne_nil more
  have window := h.window
  rw [List.length_cons] at window
  obtain ⟨irSt, irCnt⟩ := tick.counts (by omega)
  have cfg : (finishTick u).cfg = s.cfg := (finishTick_cfg u).trans tick.cfg
  refine ⟨finishTick u, hs, ?_, irSt⟩
  exact {
    valid := cfg ▸ h.valid
    enabled := ((finishTick_icie u).trans tick.icie).trans h.enabled
    busy := irSt ▸ h.busy
    window := by rw [irCnt, cfg]; omega
    inputs := (finishTick_inputs u).trans inputs
    edgeless := by
      rw [finishTick_irPrev, tick.irPrev]
      exact fun j hj => h.edgeless j (List.mem_cons_of_mem i hj) }

/-- The last tick returns the decoder to `IR_IDLE`. -/
theorem Silent.step_expires (h : Silent s [i] rest) :
    ∃ t, step s = .next t ∧ t.irSt = .idle ∧ t.ices = false ∧ t.inputs = rest := by
  obtain ⟨u, tick, inputs, hs⟩ := h.tick
  obtain ⟨irSt, ices⟩ := tick.expires h.window.ge
  exact ⟨finishTick u, hs, irSt, ices, (finishTick_inputs u).trans inputs⟩
end

/-- A silence ends in exactly its last tick, by induction on the ticks still to come. -/
theorem Silent.run {ins rest : List Inputs} (some_left : ins ≠ []) {s : State} (h : Silent s ins rest) :
    (∃ t : State, Sys2Proof.core.run ins.length s = .next t ∧ t.irSt = .idle ∧ t.ices = false ∧ t.inputs = rest)
      ∧ ∀ k < ins.length, ∃ u : State, Sys2Proof.core.run k s = .next u ∧ u.irSt = s.irSt := by
  induction ins generalizing s with
  | nil => exact absurd rfl some_left
  | cons i ins ih =>
    by_cases last : ins = []
    · subst last
      obtain ⟨t, hs, idle⟩ := h.step_expires
      refine ⟨⟨t, run_succ hs, idle⟩, fun k hk => ?_⟩
      obtain rfl : k = 0 := Nat.lt_one_iff.1 hk
      exact ⟨s, rfl, rfl⟩
    · obtain ⟨t, hs, silent, same⟩ := h.step_counts last
      obtain ⟨⟨v, hv, idle⟩, before⟩ := ih last silent
      refine ⟨⟨v, (run_succ hs).trans hv, idle⟩, fun k hk => ?_⟩
      cases k with
      | zero => exact ⟨s, rfl, rfl⟩
      | succ k =>
        obtain ⟨w, hw, st⟩ := before k (Nat.lt_of_succ_lt_succ hk)
        exact ⟨w, (run_succ hs).trans hw, st.trans same⟩

/-- Settles O55: the scheduled lines are as many as the time-out still needs. -/
theorem silenceReturnsTheDecoderToIdle : Obligations.SilenceReturnsTheDecoderToIdle := by
  intro s ins rest valid enabled busy short inputs length edgeless
  rw [← length]
  have some_left : ins ≠ [] := List.ne_nil_of_length_pos (by omega)
  exact Silent.run some_left ⟨valid, enabled, busy, by omega, inputs, edgeless⟩

/-! ### The way out of `IR_IDLE` -/

/-- Of everything a step of the decoder can do, a falling edge alone leaves `IR_IDLE` (rule R181). -/
theorem DecoderMove.leaves_idle {s : State} {r : DecoderRegs} (m : DecoderMove s r) (idle : s.irSt = .idle)
    (left : r.irSt ≠ .idle) :
    CaptureDue s ∧ s.wires.fall = true ∧ r = { s.fallen.decoder with irSt := .syncLow, irCnt := 0 } := by
  cases m with
  | rest => exact absurd idle left
  | timeout => exact absurd rfl left
  | count _ busy => exact absurd idle busy
  | fall hd hf => exact ⟨hd, hf, by rw [idle]; rfl⟩
  | resync st => simp [idle] at st
  | _ st => simp [idle] at st

/-- Settles O60: `INIT` holds the decoder, and any other tick gives it the lines' edge. -/
theorem decoderLeavesIdleOnlyAtAFallingEdge : Obligations.DecoderLeavesIdleOnlyAtAFallingEdge := by
  intro s t i rest edge hi hr h idle left
  obtain ⟨u, hu, rfl⟩ := step_scheduled hi hr h
  have uIdle : u.irSt = .idle := by
    obtain ⟨-, -, -, -, -, irSt, -⟩ | ⟨-, -, -, -, -, irSt, -⟩ := hu.mode
    · exact irSt
    · exact irSt.trans idle
  obtain ⟨⟨icie, hold, -⟩, fall, regs⟩ := (hu.decoderMove edge).leaves_idle uIdle left
  obtain ⟨-, held, -⟩ | ⟨notInit, -, sameIcie, -⟩ := hu.mode
  · exact absurd (hold.symm.trans held) Bool.false_ne_true
  · obtain ⟨high, low⟩ := (fallingEdge_iff s.irPrev i.irIn).1 (hu.fall.symm.trans fall)
    exact ⟨congrArg DecoderRegs.irSt regs, sameIcie.symm.trans icie, notInit, high, low,
      (congrArg DecoderRegs.capStart regs).trans hu.tcnt, (congrArg DecoderRegs.icr regs).trans hu.tcnt,
      congrArg DecoderRegs.ices regs, congrArg DecoderRegs.irCnt regs⟩

/-! ### The symbols -/

/-- A data symbol of a bit stores it, in bit capture. -/
theorem exec_bitSymbol (b : Bool) {s : State} (st : s.irSt = .bitLow) :
    exec (bitSymbol b) s = .next (storeBit b s) := by
  cases b
  · exact congrArg Host.Outcome.next (if_pos st)
  · exact congrArg Host.Outcome.next (if_pos st)

@[simp] theorem storedPacket_false (pkt : Packet) (bitIdx : BitVec 4) : storedPacket pkt bitIdx false = pkt := by
  simp [storedPacket]

theorem storedPacket_true (pkt : Packet) (bitIdx : BitVec 4) :
    storedPacket pkt bitIdx true = pkt ||| (1#12 <<< bitIdx.toNat) := rfl

/-- Settles O48: each bit symbol before the last bit and at it, then the bad symbol, then the other states. -/
theorem dataSymbolsStoreOrReject : Obligations.DataSymbolsStoreOrReject := by
  intro s
  constructor
  · intro st
    have zero : exec .symZero s = .next (storeBit false s) := exec_bitSymbol false st
    have one : exec .symOne s = .next (storeBit true s) := exec_bitSymbol true st
    rw [zero, one]
    refine ⟨fun more => ?_, fun last => ?_, congrArg Host.Outcome.next (if_pos st)⟩
    · rw [storeBit_notLast _ more, storeBit_notLast _ more, storedPacket_false, storedPacket_true]
      exact ⟨rfl, rfl⟩
    · rw [storeBit_last _ last, storeBit_last _ last, storedPacket_false, storedPacket_true]
      exact ⟨rfl, rfl⟩
  · intro st
    exact ⟨congrArg Host.Outcome.next (if_neg st), congrArg Host.Outcome.next (if_neg st),
      congrArg Host.Outcome.next (if_neg st)⟩

/-- Settles O47: both symbols ask for `IR_SYNC_LOW` first. -/
theorem syncSymbolsStartOrPassOver : Obligations.SyncSymbolsStartOrPassOver := fun _ =>
  ⟨fun st => ⟨congrArg Host.Outcome.next (if_pos st), congrArg Host.Outcome.next (if_pos st)⟩,
    fun st => ⟨congrArg Host.Outcome.next (if_neg st), congrArg Host.Outcome.next (if_neg st)⟩⟩

/-! ### The completed packet -/

/-- An unrecognised command posts nothing; the release wait follows all the same. -/
theorem acceptCommand_unrecognised {p : Packet} {s : State} (h : s.cfg.commandButton (packetCmd p) = .noButton) :
    acceptCommand p s = { s with irSt := .rel } := by
  rw [acceptCommand, h, State.withButton_noButton]

/-- A recognised command posts its button. -/
theorem acceptCommand_recognised {p : Packet} {s : State} (h : s.cfg.commandButton (packetCmd p) ≠ .noButton) :
    acceptCommand p s = { s with
      irSt := .rel
      wires := { s.wires with posts := { s.wires.posts with
        ir := some (s.cfg.commandButton (packetCmd p)).code } } } := by
  rw [acceptCommand_eq, if_neg h]

/-- A packet on its wire goes through the address check. -/
theorem iraddrOp_some {p : Packet} {s : State} (h : s.wires.packet = some p) :
    iraddrOp s = if packetAddr p = s.cfg.rxAddr then s
      else { rejectAddress s with wires := { s.wires with packet := none } } := by
  rw [iraddrOp, h]

/-- A packet that is still on its wire at `IRCMD` is the receiver's. -/
theorem ircmdOp_some {p : Packet} {s : State} (h : s.wires.packet = some p) : ircmdOp s = acceptCommand p s := by
  rw [ircmdOp, h]

theorem iraddrOp_none {s : State} (h : s.wires.packet = none) : iraddrOp s = s := by rw [iraddrOp, h]

theorem ircmdOp_none {s : State} (h : s.wires.packet = none) : ircmdOp s = s := by rw [ircmdOp, h]

/-- Settles O50: the address check of the packet on its wire, and of a packet word. -/
theorem foreignPacketsAreDiscarded : Obligations.ForeignPacketsAreDiscarded := by
  refine fun s => ⟨fun p onWire => ⟨fun foreign => ?_, fun own => ?_⟩, fun noPacket => ?_, fun a c foreign => ?_⟩
  · exact congrArg Host.Outcome.next ((iraddrOp_some onWire).trans (if_neg foreign))
  · exact congrArg Host.Outcome.next ((iraddrOp_some onWire).trans (if_pos own))
  · exact ⟨congrArg Host.Outcome.next (iraddrOp_none noPacket), congrArg Host.Outcome.next (ircmdOp_none noPacket)⟩
  · obtain ⟨addr_eq, -⟩ := Laws.RoundTrip.packetOf_fields a c
    exact congrArg Host.Outcome.next (if_neg (addr_eq.trans_ne foreign))

/-- Settles O51: the command of the packet on its wire, and of a packet word, recognised or not. -/
theorem acceptedPacketsPostTheirCommand : Obligations.AcceptedPacketsPostTheirCommand := by
  intro s cmd
  refine ⟨?_, fun unrecognised => ?_, fun recognised => ?_⟩
  · rintro p onWire rfl
    have run : exec .ircmd s = .next (acceptCommand p s) := congrArg Host.Outcome.next (ircmdOp_some onWire)
    rw [run]
    exact ⟨fun unrecognised => congrArg Host.Outcome.next (acceptCommand_unrecognised unrecognised),
      fun recognised => congrArg Host.Outcome.next (acceptCommand_recognised recognised)⟩
  · obtain ⟨addr_eq, cmd_eq⟩ := Laws.RoundTrip.packetOf_fields s.cfg.rxAddr cmd
    rw [exec_pkt, completePacket, if_pos addr_eq, acceptCommand_unrecognised (cmd_eq.symm ▸ unrecognised)]
  · rw [exec_pkt, completePacket_recognised recognised]

/-! ### The captures -/

/-- Without a capture frame sync does nothing. -/
theorem irsyncOp_noCapture {s : State} (h : s.wires.cap = none) : irsyncOp s = s := by
  rw [irsyncOp, h]
  cases s.irSt <;> rfl

/-- Without a capture bit capture does nothing. -/
theorem irbitOp_noCapture {s : State} (h : s.wires.cap = none) : irbitOp s = s := by
  rw [irbitOp, h]
  cases s.irSt <;> rfl

section
variable {s : State} (captured : s.wires.cap ≠ none)
include captured

theorem irsyncOp_syncGap (st : s.irSt = .syncGap) : irsyncOp s = { s with irCnt := 0, irSt := .syncLow } := by
  obtain ⟨e, he⟩ := Option.ne_none_iff_exists'.1 captured
  rw [irsyncOp, st, he]

theorem irbitOp_bitGap (st : s.irSt = .bitGap) : irbitOp s = { s with irCnt := 0, irSt := .bitLow } := by
  obtain ⟨e, he⟩ := Option.ne_none_iff_exists'.1 captured
  rw [irbitOp, st, he]

/-- The end of a pulse in frame sync. -/
theorem irsyncOp_syncLow {w : Nat} (st : s.irSt = .syncLow) (width : s.wires.width = some w) :
    irsyncOp s = if decodeSyncPulse s.cfg w = .symLead then leadOp { s with irCnt := 0 }
      else notLeadOp { s with irCnt := 0 } := by
  obtain ⟨e, he⟩ := Option.ne_none_iff_exists'.1 captured
  simp only [irsyncOp, st, he, width]

/-- The end of a pulse in bit capture. -/
theorem irbitOp_bitLow {w : Nat} (st : s.irSt = .bitLow) (width : s.wires.width = some w) :
    irbitOp s = if decodeDataPulse s.cfg w = .symZero then zeroOp { s with irCnt := 0 }
      else if decodeDataPulse s.cfg w = .symOne then oneOp { s with irCnt := 0 }
      else badOp { s with irCnt := 0 } := by
  obtain ⟨e, he⟩ := Option.ne_none_iff_exists'.1 captured
  simp only [irbitOp, st, he, width]
end

theorem decodeSyncPulse_cases (c : Config) (w : Nat) :
    decodeSyncPulse c w = .symLead ∨ decodeSyncPulse c w = .symNotLead := by
  rw [decodeSyncPulse_eq_symLead_iff, decodeSyncPulse_eq_symNotLead_iff]
  omega

theorem decodeDataPulse_cases (c : Config) (w : Nat) :
    decodeDataPulse c w = .symZero ∨ decodeDataPulse c w = .symOne ∨ decodeDataPulse c w = .symBad := by
  unfold decodeDataPulse
  split_ifs <;> simp

/-- Settles O45: each of the three operations with a capture, then without one. -/
theorem fallingEdgeEntersThePulse : Obligations.FallingEdgeEntersThePulse := by
  intro s
  constructor
  · intro captured
    exact ⟨fun st => congrArg Host.Outcome.next (if_pos ⟨st, Option.isSome_iff_ne_none.2 captured⟩),
      fun st => congrArg Host.Outcome.next (irsyncOp_syncGap captured st),
      fun st => congrArg Host.Outcome.next (irbitOp_bitGap captured st)⟩
  · intro noCapture
    exact ⟨congrArg Host.Outcome.next (if_neg (by simp [noCapture])),
      congrArg Host.Outcome.next (irsyncOp_noCapture noCapture),
      congrArg Host.Outcome.next (irbitOp_noCapture noCapture)⟩

/-- Settles O46, by the symbols a width can decode to. -/
theorem pulsesRunTheSymbolOfTheirWidth : Obligations.PulsesRunTheSymbolOfTheirWidth := by
  intro s w captured width
  constructor
  · intro st
    have run : exec .irsync s = .next _ := congrArg Host.Outcome.next (irsyncOp_syncLow captured st width)
    rw [run]
    obtain h | h := decodeSyncPulse_cases s.cfg w <;> rw [h] <;> rfl
  · intro st
    have run : exec .irbit s = .next _ := congrArg Host.Outcome.next (irbitOp_bitLow captured st width)
    rw [run]
    obtain h | h | h := decodeDataPulse_cases s.cfg w <;> rw [h] <;> rfl

/-- Settles O53: the operation asks for the release wait and for a capture. -/
theorem irrelOnlyRestartsTheSilence : Obligations.IrrelOnlyRestartsTheSilence := fun _ =>
  ⟨fun st captured => congrArg Host.Outcome.next (if_pos ⟨st, Option.isSome_iff_ne_none.2 captured⟩),
    fun noCapture => congrArg Host.Outcome.next (if_neg (by simp [noCapture]))⟩

end Sys2Proof.Machine

/-! The statements of 44_mailbox_host.md: the host operations (rules R222 to R227), the wiring of the posts (rule R221),
the tick around each host operation (rules R223, R225 to R227, R229), and when the mailbox changes (rules R220, R228).
First what a host operation answers; then its tick; then what a tick can post on each port. -/

namespace Sys2Proof.Machine

open Sys2Proof

/-! ### The host operations and the wiring of the posts -/

/-- The condition of `isAnyPressed` (rule R226). -/
theorem anyPressed_iff (m : LineMask) (st : IrState) : anyPressed m st = true ↔ m ≠ 0#6 ∨ st ≠ .idle := by
  simp [anyPressed, irBusy]

theorem isanyOp_eq (s : State) :
    isanyOp s = s.withResponse (if s.mask ≠ 0#6 ∨ s.irSt ≠ .idle then 0x01#8 else 0x00#8) := by
  simp only [isanyOp, anyPressed_iff]

theorem applyPost_eq_getD (e : Byte) (p : Option Byte) : applyPost e p = p.getD e := by
  cases p <;> rfl

/-- Settles O11: what `exec` runs for the two codes. -/
theorem popClearsAndPeekDoesNot : Obligations.PopClearsAndPeekDoesNot := fun _ => ⟨rfl, rfl⟩

/-- Settles O12: all four codes run `noCall`. -/
theorem nopAndReservedCodesCallNothing : Obligations.NopAndReservedCodesCallNothing := by
  intro s i listed
  have run : exec i s = .next (noCall s) := by
    simp only [List.mem_cons, List.not_mem_nil, or_false] at listed
    obtain rfl | rfl | rfl | rfl := listed <;> rfl
  exact run

/-- Settles O13: what `exec` runs for the code. -/
theorem initEnablesAndRearms : Obligations.InitEnablesAndRearms := fun _ => rfl

/-- Settles O14: the mask of `isAnyPressed` is the sampled button lines'. -/
theorem isanyReadsLinesAndDecoder : Obligations.IsanyReadsLinesAndDecoder :=
  fun s => congrArg Host.Outcome.next (isanyOp_eq s)

/-- Settles O19: each of the four applications in `postOp` prefers the port's value. -/
theorem lastPresentPostIsKept : Obligations.LastPresentPostIsKept := by
  intro s
  simp only [← applyPost_eq_getD]
  rfl

/-! ### The tick of an operation that only answers -/

/-- The response of a host operation that writes nothing (rules R222, R225 to R227), on the lines and registers it
reads. -/
def State.answer (s : State) (op : HostWord) (btnN : LineMask) : Byte :=
  if op = 0b011#3 then s.evt
  else if op = 0b100#3 ∧ ((~~~btnN &&& 0x3F#6) ≠ 0#6 ∨ s.irSt ≠ .idle) then 0x01#8
  else 0x00#8

theorem State.answer_isany (s : State) (btnN : LineMask) :
    s.answer 0b100#3 btnN = if (~~~btnN &&& 0x3F#6) ≠ 0#6 ∨ s.irSt ≠ .idle then 0x01#8 else 0x00#8 := by
  simp [State.answer]

/-- `PEEK`, `ISANY` and the reserved codes write their response and nothing else. -/
theorem exec_answers {op : HostWord} (listed : op ∈ [0b011#3, 0b100#3, 0b101#3, 0b110#3, 0b111#3]) (s : State) :
    exec (decodeHost op) s = .next (s.withResponse (s.answer op s.wires.inp.btnN)) := by
  simp only [List.mem_cons, List.not_mem_nil, or_false] at listed
  obtain rfl | rfl | rfl | rfl | rfl := listed
  · rfl
  · rw [State.answer_isany]
    exact congrArg Host.Outcome.next (isanyOp_eq s)
  all_goals rfl

/-- The end of a tick does not depend on the response and on the host's code, and carries the response along. -/
theorem finishTick_withHostPort (v : Byte) (op : HostWord) (u : State) :
    finishTick (u.withHostPort v u.evt op) = (finishTick u).withResponse v := by
  have evt : (enginesDone u).evt = u.evt := enginesDone_keeps u State.evt (fun _ _ => rfl) (fun _ _ => rfl)
  have engines : enginesDone (u.withHostPort v u.evt op) = (enginesDone u).withHostPort v (enginesDone u).evt op := by
    rw [enginesDone, irStep_withHostPort, pchStep_withHostPort, evt, enginesDone]
  rw [finishTick_eq, finishTick_eq u, engines]
  rfl

/-- A tick without reset on the lines `i`, whatever is scheduled after them. -/
theorem step_presented {s u : State} {i : Inputs} {rest : List Inputs} (hv : s.cfg.valid = true)
    (hr : i.rst = false) (hu : exec (decodeHost i.hostOp) (beginTick i { s with inputs := rest }) = .next u) :
    step { s with inputs := i :: rest } = .next (finishTick u) :=
  step_exec (s := { s with inputs := i :: rest }) hv rfl hr hu

/-- An operation that leaves what `NOP` leaves with the mailbox at `e`, but for the response `v`, has the tick of that
`NOP` but for its response. -/
theorem step_likeNop {s : State} {i : Inputs} {rest : List Inputs} {op : HostWord} {v e : Byte}
    (hv : s.cfg.valid = true) (hr : i.rst = false)
    (likeNop : exec (decodeHost op) (beginTick { i with hostOp := op } { s with inputs := rest })
      = .next ((beginTick { i with hostOp := 0b000#3 } { s with evt := e, inputs := rest }).withHostPort v e op)) :
    ∃ t, step { s with evt := e, inputs := { i with hostOp := 0b000#3 } :: rest } = .next t
      ∧ step { s with inputs := { i with hostOp := op } :: rest } = .next (t.withResponse v) := by
  have nop : exec (decodeHost 0b000#3) (beginTick { i with hostOp := 0b000#3 } { s with evt := e, inputs := rest })
      = .next (beginTick { i with hostOp := 0b000#3 } { s with evt := e, inputs := rest }) := rfl
  exact ⟨_, step_presented (i := { i with hostOp := 0b000#3 }) (s := { s with evt := e }) hv hr nop,
    (step_presented (i := { i with hostOp := op }) hv hr likeNop).trans
      (congrArg Host.Outcome.next (finishTick_withHostPort v op _))⟩

/-- Settles O15: the operations leave what `NOP` leaves, but for the response. -/
theorem otherHostOperationsRunTheSameTick : Obligations.OtherHostOperationsRunTheSameTick := by
  intro s i rest op hv hr listed
  have answers := exec_answers listed (beginTick { i with hostOp := op } { s with inputs := rest })
  exact step_likeNop (e := s.evt) (v := s.answer op i.btnN) hv hr answers

/-- Settles O16: `POP` leaves what `NOP` leaves on an empty mailbox, but for the response; the posts come after it. -/
theorem popAndPostLoseNothing : Obligations.PopAndPostLoseNothing :=
  fun _ _ _ hv hr => step_likeNop (e := 0x00#8) hv hr rfl

/-! ### The tick of `INIT` -/

/-- With the wire `hold` asserted neither engine steps (rule R223). -/
theorem enginesDone_held {u : State} (hold : u.wires.hold = true) :
    enginesDone u = { u with wires := { u.wires with cap := none, width := none } } := by
  rw [enginesDone, irStep_held (by simp [State.irRuns, hold])]
  exact pchStep_held (by simp [State.pchRuns, hold])

/-- Settles O17: `INIT` asserts `hold`, so after its own writes only phases P4 and P5 act, on idle ports. -/
theorem initTickRunsNoEngine : Obligations.InitTickRunsNoEngine := by
  intro s i rest hv hi hr op
  have init : exec (decodeHost i.hostOp) (beginTick i { s with inputs := rest })
      = .next (initOp (beginTick i { s with inputs := rest })) := by
    rw [op]
    rfl
  have held : (initOp (beginTick i { s with inputs := rest })).wires.hold = true := rfl
  rw [step_exec hv hi hr init, finishTick_eq, enginesDone_held held]
  rfl

/-! ### What the decoder's step can post -/

theorem irarmOp_wires (s : State) : (irarmOp s).wires = s.wires := by
  unfold irarmOp
  split <;> rfl

theorem irrelOp_wires (s : State) : (irrelOp s).wires = s.wires := by
  unfold irrelOp
  split <;> rfl

theorem leadOp_wires (s : State) : (leadOp s).wires = s.wires := by
  unfold leadOp
  split <;> rfl

theorem notLeadOp_wires (s : State) : (notLeadOp s).wires = s.wires := by
  unfold notLeadOp
  split <;> rfl

theorem irsyncOp_wires (s : State) : (irsyncOp s).wires = s.wires := by
  unfold irsyncOp
  extract_lets t
  split
  · split
    · split
      · exact leadOp_wires t
      · exact notLeadOp_wires t
    · rfl
  · rfl
  · rfl

/-- What `CAPTURE` and `WIDTH` leave of the decoder's registers and wires: a width comes with a rising edge only. -/
structure Captured (u c : State) : Prop where
  cfg : c.cfg = u.cfg
  irSt : c.irSt = u.irSt
  bitIdx : c.bitIdx = u.bitIdx
  packet : c.wires.packet = u.wires.packet
  posts : c.wires.posts = u.wires.posts
  cap : c.wires.cap ≠ none
  rise : c.wires.width ≠ none → u.wires.rise = true

theorem CaptureDue.captured {u : State} (due : CaptureDue u) : Captured u (widthOp (captureOp u)) := by
  obtain ⟨-, -, ⟨ices, fall⟩ | ⟨ices, rise⟩⟩ := id due
  · rw [captured_falling due ices fall]
    exact ⟨rfl, rfl, rfl, rfl, rfl, by simp, fun width => absurd rfl width⟩
  · rw [captured_rising due ices rise]
    exact ⟨rfl, rfl, rfl, rfl, rfl, by simp, fun _ => rise⟩

/-- A port holds the code of a button other than `None`. -/
abbrev PostsButton (p : Option Byte) : Prop := ∃ b : LogicalButton, b ≠ .noButton ∧ p = some b.code

theorem acceptCommand_post (p : Packet) (s : State) :
    (acceptCommand p s).wires.posts.ir = s.wires.posts.ir ∨ PostsButton (acceptCommand p s).wires.posts.ir := by
  by_cases recognised : s.cfg.commandButton (packetCmd p) = .noButton
  · rw [acceptCommand_unrecognised recognised]
    exact .inl rfl
  · rw [acceptCommand_recognised recognised]
    exact .inr ⟨_, recognised, rfl⟩

/-- The end of a pulse in bit capture posts nothing, or the button of a packet whose last bit it is. -/
theorem endOfBit_post {c : State} (noPacket : c.wires.packet = none) (st : c.irSt = .bitLow)
    (captured : c.wires.cap ≠ none) :
    (ircmdOp (iraddrOp (irbitOp c))).wires.posts.ir = c.wires.posts.ir
      ∨ (c.wires.width ≠ none ∧ lastBit c.cfg c.bitIdx = true
        ∧ PostsButton (ircmdOp (iraddrOp (irbitOp c))).wires.posts.ir) := by
  obtain ⟨-, h⟩ | ⟨w, -, -, h⟩ | ⟨w, b, -, -, -, h⟩ | ⟨w, b, -, -, -, -, h⟩ | ⟨w, b, width, -, last, -, h⟩ :=
    endOfBit_cases noPacket st captured
  case inr.inr.inr.inr =>
    rw [h]
    exact (acceptCommand_post _ _).imp_right fun posts => ⟨by simp [width], last, posts⟩
  all_goals
    rw [h]
    exact .inl rfl

/-- `u`, between phases P2 and P3, is in the tick of the rising edge that ends a packet's last pulse (rule R186). -/
structure PacketEnds (u : State) : Prop where
  runs : u.irRuns = true
  st : u.irSt = .bitLow
  last : lastBit u.cfg u.bitIdx = true
  rise : u.wires.rise = true

/-- The decoder's step posts nothing, or the button of the packet that ends. -/
theorem irStep_post {u : State} (noPacket : u.wires.packet = none) :
    (irStep u).wires.posts.ir = u.wires.posts.ir
      ∨ (PacketEnds u ∧ PostsButton (irStep u).wires.posts.ir) := by
  by_cases due : CaptureDue u
  · have c := due.captured
    rw [irStep_captured due, ← c.posts]
    cases st : u.irSt with
    | idle => exact .inl (by rw [irarmOp_wires])
    | syncLow => exact .inl (by rw [irsyncOp_wires])
    | syncGap => exact .inl (by rw [irsyncOp_wires])
    | bitGap => exact .inl (by simp only [irbitOp_bitGap c.cap (c.irSt.trans st)])
    | rel => exact .inl (by rw [irrelOp_wires])
    | bitLow =>
      refine (endOfBit_post (c.packet.trans noPacket) (c.irSt.trans st) c.cap).imp_right ?_
      rintro ⟨width, last, posts⟩
      rw [c.cfg, c.bitIdx] at last
      exact ⟨⟨u.irRuns_iff.2 ⟨due.1, due.2.1⟩, st, last, c.rise width⟩, posts⟩
  · rw [irStep_quiet due, irtimeoutOp_wires]
    exact .inl rfl

/-! ### What a tick can post -/

/-- What a port holds, if anything, is an event: `None` is never posted (rule R220). -/
def PostsEvent (p : Option Byte) : Prop := ∀ v, p = some v → v ≠ 0x00#8

theorem postsEvent_none : PostsEvent none := fun _ h => nomatch h

theorem postsEvent_some {v : Byte} (h : v ≠ 0x00#8) : PostsEvent (some v) := by
  rintro _ ⟨⟩
  exact h

/-- A post leaves an event pending. -/
theorem PostsEvent.applyPost_ne {e : Byte} {p : Option Byte} (h : PostsEvent p) (pending : e ≠ 0x00#8) :
    applyPost e p ≠ 0x00#8 := by
  cases p with
  | none => exact pending
  | some v => exact h v rfl

/-- `None` alone has the code `0x00` (30_encoding.md rule R86). -/
theorem buttonCode_ne_zero {b : LogicalButton} (h : b ≠ .noButton) : b.code ≠ 0x00#8 := by
  cases b with
  | noButton => exact absurd rfl h
  | _ => decide

theorem PostsButton.postsEvent {p : Option Byte} (h : PostsButton p) : PostsEvent p := by
  obtain ⟨b, recognised, rfl⟩ := h
  exact postsEvent_some (buttonCode_ne_zero recognised)

theorem maskCode_ne_zero {m : LineMask} (h : m ≠ 0#6) : maskCode m ≠ 0x00#8 := by
  rw [maskCode]
  bv_omega

/-- A knob that posts, posts one of its two events. -/
theorem portAfter_knobPost_postsEvent (c : Config) (k : Knob) (old new : Quadrant) (e : EncState) :
    PostsEvent (portAfter none (knobPost c k old new e)) := by
  cases posted : knobPost c k old new e with
  | none => exact postsEvent_none
  | some v =>
    refine postsEvent_some ?_
    obtain rfl | rfl := knobPost_cases posted <;> cases k <;> decide

/-- What the engines of a tick leave on the four ports, from the state `u` between phases P2 and P3. -/
structure TickPosts (u : State) (p : Posts) : Prop where
  /-- The latched mask, at the end of a release wait (41_debounce.md rule R136). -/
  db : p.db = none ∨ (u.pchRuns = true ∧ u.pchSt = .dbRel ∧ p.db = some (maskCode u.dbCand))
  /-- The knobs' events, where a settle window may end (42_quadrature.md rules R160, R164). -/
  knobs : (p.A = none ∧ p.B = none)
    ∨ (u.pchRuns = true ∧ (u.pchSt = .enSettle ∨ u.cfg.tSettle ≤ 1) ∧ PostsEvent p.A ∧ PostsEvent p.B)
  /-- A recognised command, at the end of its packet (43_ir_decoder.md rule R188). -/
  ir : p.ir = none ∨ (PacketEnds u ∧ PostsButton p.ir)

/-- On idle ports the engines of a tick leave no other posts. -/
theorem enginesDone_tickPosts {u : State} (noPacket : u.wires.packet = none)
    (idle : u.wires.posts = ⟨none, none, none, none⟩) : TickPosts u (enginesDone u).wires.posts := by
  have frame := irStep_frame u
  have cfg : (irStep u).cfg = u.cfg := frame.keeps State.cfg fun _ _ => rfl
  have runs : (irStep u).pchRuns = u.pchRuns := frame.keeps State.pchRuns fun _ _ => rfl
  have cand : (irStep u).dbCand = u.dbCand := frame.keeps State.dbCand fun _ _ => rfl
  have db : (irStep u).wires.posts.db = none :=
    (frame.keeps (·.wires.posts.db) fun _ _ => rfl).trans (congrArg Posts.db idle)
  have A : (irStep u).wires.posts.A = none :=
    (frame.keeps (·.wires.posts.A) fun _ _ => rfl).trans (congrArg Posts.A idle)
  have B : (irStep u).wires.posts.B = none :=
    (frame.keeps (·.wires.posts.B) fun _ _ => rfl).trans (congrArg Posts.B idle)
  have ir : (enginesDone u).wires.posts.ir = (irStep u).wires.posts.ir :=
    (pchStep_frame (irStep u)).keeps (·.wires.posts.ir) fun _ _ => rfl
  constructor
  · obtain ⟨posts, -⟩ := pchStep_db (irStep u)
    rwa [db, runs, irStep_pchSt, cand] at posts
  · obtain ⟨-, -, keptA, keptB⟩ | ⟨hr, window, -, -, -, postA, postB⟩ := pchStep_knobs (irStep u)
    · exact .inl ⟨keptA.trans A, keptB.trans B⟩
    · rw [A] at postA
      rw [B] at postB
      rw [runs] at hr
      rw [irStep_pchSt, cfg] at window
      refine .inr ⟨hr, window, ?_, ?_⟩
      · rw [enginesDone, postA]
        exact portAfter_knobPost_postsEvent _ _ _ _ _
      · rw [enginesDone, postB]
        exact portAfter_knobPost_postsEvent _ _ _ _ _
  · rw [ir]
    have posts := irStep_post noPacket
    rwa [congrArg Posts.ir idle] at posts

/-- The mailbox at the end of a tick: the last present post, or the value that phase P2 left. -/
theorem finishTick_evt (u : State) : (finishTick u).evt =
    applyPost (applyPost (applyPost (applyPost u.evt (enginesDone u).wires.posts.db)
      (enginesDone u).wires.posts.A) (enginesDone u).wires.posts.B) (enginesDone u).wires.posts.ir := by
  have evt : (enginesDone u).evt = u.evt := enginesDone_keeps u State.evt (fun _ _ => rfl) (fun _ _ => rfl)
  rw [finishTick_eq, ← evt]

/-- A tick that changes the mailbox after phase P2 ends a release or settle window, or a packet. -/
theorem finishTick_evt_changes {u : State} (posts : TickPosts u (enginesDone u).wires.posts)
    (changed : (finishTick u).evt ≠ u.evt) :
    (u.pchRuns = true ∧ (u.pchSt = .dbRel ∨ u.pchSt = .enSettle ∨ u.cfg.tSettle ≤ 1)) ∨ PacketEnds u := by
  obtain ⟨db | ⟨runs, wait, -⟩, knobs, ir⟩ := posts
  · obtain ⟨A, B⟩ | ⟨runs, window, -⟩ := knobs
    · obtain ir | ⟨ends, -⟩ := ir
      · rw [finishTick_evt, db, A, B, ir] at changed
        exact absurd rfl changed
      · exact .inr ends
    · exact .inl ⟨runs, .inr window⟩
  · exact .inl ⟨runs, .inl wait⟩

/-! ### When the mailbox changes -/

section
variable {s u : State} {i : Inputs}

/-- Only `POP` writes the mailbox in phase P2. -/
theorem HostDone.evt_of_notPop (h : HostDone s i u) (notPop : i.hostOp ≠ 0b010#3) : u.evt = s.evt := by
  obtain ⟨-, -, -, -, -, -, -, -, evt⟩ | ⟨-, -, -, -, -, -, -, -, ⟨pop, -⟩ | ⟨-, evt⟩⟩ := h.mode
  · exact evt
  · exact absurd pop notPop
  · exact evt

/-- In a tick whose engines are not held, phases P1 and P2 leave the enables and the engines' states as they were. -/
theorem HostDone.unheld (h : HostDone s i u) (unheld : u.wires.hold = false) :
    i.hostOp ≠ 0b001#3 ∧ u.icie = s.icie ∧ u.pcie = s.pcie ∧ u.irSt = s.irSt ∧ u.pchSt = s.pchSt := by
  obtain ⟨-, held, -⟩ | ⟨notInit, -, icie, pcie, -, irSt, pchSt, -⟩ := h.mode
  · exact absurd (unheld.symm.trans held) Bool.false_ne_true
  · exact ⟨notInit, icie, pcie, irSt, pchSt⟩

/-- The end of a tick leaves an event pending, if no empty mask is latched. -/
theorem HostDone.evt_ne_finishTick (h : HostDone s i u) (pressed : CandidateIsPressed s) (pending : u.evt ≠ 0x00#8) :
    (finishTick u).evt ≠ 0x00#8 := by
  obtain ⟨dbPost, knobPosts, irPost⟩ := enginesDone_tickPosts h.packet h.posts
  have db : PostsEvent (enginesDone u).wires.posts.db := by
    obtain silent | ⟨-, wait, mask⟩ := dbPost
    · exact silent ▸ postsEvent_none
    · exact mask ▸ postsEvent_some (maskCode_ne_zero (h.candidateIsPressed pressed (.inr wait)))
  have knobs : PostsEvent (enginesDone u).wires.posts.A ∧ PostsEvent (enginesDone u).wires.posts.B := by
    obtain ⟨A, B⟩ | ⟨-, -, events⟩ := knobPosts
    · exact ⟨A ▸ postsEvent_none, B ▸ postsEvent_none⟩
    · exact events
  have ir : PostsEvent (enginesDone u).wires.posts.ir := by
    obtain silent | ⟨-, button⟩ := irPost
    · exact silent ▸ postsEvent_none
    · exact button.postsEvent
  obtain ⟨A, B⟩ := knobs
  rw [finishTick_evt]
  exact ir.applyPost_ne (B.applyPost_ne (A.applyPost_ne (db.applyPost_ne pending)))
end

/-- Settles O20: without `POP` a change comes from a post, and a tick that posts is not held, so not `INIT`'s. -/
theorem evtChangesOnlyByPopOrPost : Obligations.EvtChangesOnlyByPopOrPost := by
  intro s t i rest hi hr notPop h changed
  obtain ⟨hv, -⟩ := step_cases h
  obtain ⟨-, -, -, -, -, -, -, -, -, -, -, -, -, -, -, -, nBits, -⟩ := (Config.valid_iff s.cfg).1 hv
  obtain ⟨u, hu, rfl⟩ := step_scheduled hi hr h
  rw [← hu.evt_of_notPop notPop] at changed
  obtain ⟨runs, window⟩ | ends := finishTick_evt_changes (enginesDone_tickPosts hu.packet hu.posts) changed
  · obtain ⟨enabled, unheld⟩ := u.pchRuns_iff.1 runs
    obtain ⟨notInit, -, pcie, -, pchSt⟩ := hu.unheld unheld
    rw [pcie] at enabled
    rw [pchSt, hu.cfg] at window
    exact ⟨notInit, .inl ⟨enabled, window⟩⟩
  · obtain ⟨runs, st, last, rise⟩ := ends
    obtain ⟨enabled, unheld⟩ := u.irRuns_iff.1 runs
    obtain ⟨notInit, icie, -, irSt, -⟩ := hu.unheld unheld
    rw [icie] at enabled
    rw [irSt] at st
    rw [hu.cfg, hu.bitIdx, lastBit_iff, nBits] at last
    rw [hu.rise] at rise
    have twelfth : s.bitIdx = 11#4 := BitVec.eq_of_toNat_eq (Nat.succ.inj last)
    obtain ⟨low, high⟩ := (risingEdge_iff s.irPrev i.irIn).1 rise
    exact ⟨notInit, .inr ⟨enabled, st, twelfth, low, high⟩⟩

theorem State.evtPending_iff (s : State) : s.evtPending = true ↔ s.evt ≠ 0x00#8 := bne_iff_ne

/-- Settles O21: phase P2 keeps the pending event, and what is posted over it is never `None`. -/
theorem pendingEventOutlivesAllButPop : Obligations.PendingEventOutlivesAllButPop := by
  refine ⟨State.evtPending_iff, fun s t i rest invariant hi hr notPop pending h => ?_⟩
  obtain ⟨-, ⟨-, -, -, -, -, -, pressed, -⟩, -⟩ := invariant
  obtain ⟨u, hu, rfl⟩ := step_scheduled hi hr h
  rw [State.evtPending_iff, ← hu.evt_of_notPop notPop] at pending
  exact (State.evtPending_iff _).2 (hu.evt_ne_finishTick pressed pending)

end Sys2Proof.Machine

/-! The statement of 60_exceptions.md: every operation and every valid tick completes (rule R240), and a register that
one unit writes alone is written by its operation and by no other. First those registers and what each operation does
to them; the sequencer's operations by their frame, the decoder's one by one, since that frame holds `ICR`, `ICES` and
`cap_start`, which the capture unit writes. -/

namespace Sys2Proof.Machine

open Sys2Proof

/-! ### The registers that one unit writes alone -/

/-- The registers that one unit writes alone (10_state.md rules R22 to R27, R32 to R34, R45), and with them what no
operation writes: the parameters and the environment's lines. -/
structure OwnedRegs where
  cfg : Config
  inputs : List Inputs
  drawn : Nat
  tcnt : Nat
  irPrev : Bool
  icr : Nat
  capStart : Nat
  ices : Bool
  icie : Bool
  pcie : Bool
  pcPrev : PinVector
  pcif : Bool
  evt : Byte

def State.owned (s : State) : OwnedRegs :=
  ⟨s.cfg, s.inputs, s.drawn, s.tcnt, s.irPrev, s.icr, s.capStart, s.ices, s.icie, s.pcie, s.pcPrev, s.pcif, s.evt⟩

/-- From `r` to `r'` only the registers that `i` may write have changed. -/
def WritesOwnedBy (i : Instr) (r r' : OwnedRegs) : Prop :=
  r'.cfg = r.cfg ∧ r'.inputs = r.inputs ∧ r'.drawn = r.drawn
    ∧ (i ≠ .count → r'.tcnt = r.tcnt)
    ∧ (i ≠ .edge → r'.irPrev = r.irPrev)
    ∧ (i ≠ .capture → r'.icr = r.icr ∧ r'.capStart = r.capStart)
    ∧ (i ≠ .capture → i ≠ .irtimeout → i ≠ .init → r'.ices = r.ices)
    ∧ (i ≠ .init → r'.icie = r.icie ∧ r'.pcie = r.pcie)
    ∧ (i ≠ .pcdetect → r'.pcPrev = r.pcPrev)
    ∧ (i ≠ .pcdetect → i ≠ .init → r'.pcif = r.pcif)
    ∧ (i ≠ .pop → i ≠ .post → r'.evt = r.evt)

/-- An operation may always leave all of them alone. -/
theorem WritesOwnedBy.of_eq {i : Instr} {r r' : OwnedRegs} (kept : r' = r) : WritesOwnedBy i r r' := by
  simp [WritesOwnedBy, kept]

/-! ### What the operations do to them -/

/-- The sequencer, the Debounce Engine and the Quadrature Decoder write none of them. -/
theorem PchFrame.owned {s t : State} (h : PchFrame s t) : t.owned = s.owned := h.keeps State.owned fun _ _ => rfl

/-- The capture unit and the decoder write at most the capture unit's three. -/
theorem IrFrame.owned {s t : State} (h : IrFrame s t) :
    t.owned = { s.owned with icr := t.icr, ices := t.ices, capStart := t.capStart } := congrArg State.owned h

theorem leadOp_owned (s : State) : (leadOp s).owned = s.owned := by
  unfold leadOp
  split <;> rfl

theorem notLeadOp_owned (s : State) : (notLeadOp s).owned = s.owned := by
  unfold notLeadOp
  split <;> rfl

theorem storeBit_owned (b : Bool) (s : State) : (storeBit b s).owned = s.owned := by
  obtain ⟨-, h⟩ | ⟨-, h⟩ := storeBit_eq b s <;> rw [h] <;> rfl

theorem zeroOp_owned (s : State) : (zeroOp s).owned = s.owned := by
  unfold zeroOp
  split
  · exact storeBit_owned false s
  · rfl

theorem oneOp_owned (s : State) : (oneOp s).owned = s.owned := by
  unfold oneOp
  split
  · exact storeBit_owned true s
  · rfl

theorem badOp_owned (s : State) : (badOp s).owned = s.owned := by
  unfold badOp
  split <;> rfl

theorem acceptCommand_owned (p : Packet) (s : State) : (acceptCommand p s).owned = s.owned := by
  rw [acceptCommand_eq]
  rfl

theorem completePacket_owned (p : Packet) (s : State) : (completePacket p s).owned = s.owned := by
  unfold completePacket
  split
  · exact acceptCommand_owned p s
  · rfl

theorem widthOp_owned (s : State) : (widthOp s).owned = s.owned := by
  rw [widthOp_eq]
  rfl

theorem irarmOp_owned (s : State) : (irarmOp s).owned = s.owned := by
  unfold irarmOp
  split <;> rfl

theorem irsyncOp_owned (s : State) : (irsyncOp s).owned = s.owned := by
  unfold irsyncOp
  split
  · split
    · split
      · exact leadOp_owned _
      · exact notLeadOp_owned _
    · rfl
  · rfl
  · rfl

theorem irbitOp_owned (s : State) : (irbitOp s).owned = s.owned := by
  unfold irbitOp
  split
  · rfl
  · split
    · split
      · exact zeroOp_owned _
      · split
        · exact oneOp_owned _
        · exact badOp_owned _
    · rfl
  · rfl

theorem iraddrOp_owned (s : State) : (iraddrOp s).owned = s.owned := by
  unfold iraddrOp
  split
  · rfl
  · split <;> rfl

theorem ircmdOp_owned (s : State) : (ircmdOp s).owned = s.owned := by
  unfold ircmdOp
  split
  · rfl
  · exact acceptCommand_owned ..

theorem irrelOp_owned (s : State) : (irrelOp s).owned = s.owned := by
  unfold irrelOp
  split <;> rfl

/-- The time-out re-arms the capture unit (43_ir_decoder.md rule R190) and writes no other of them. -/
theorem irtimeoutOp_owned (s : State) : (irtimeoutOp s).owned = { s.owned with ices := (irtimeoutOp s).ices } := by
  unfold irtimeoutOp
  split
  · split
    · split <;> rfl
    · rfl
  · rfl

/-! ### The obligation -/

/-- Every operation completes, and of the registers that one unit writes alone it writes only its own: first the eight
operations that have such a register, then the others, unit by unit. -/
theorem exec_writesOwnedBy (i : Instr) (s : State) : ∃ t, exec i s = .next t ∧ WritesOwnedBy i s.owned t.owned := by
  cases i with
  | init => exact ⟨_, rfl, by simp [WritesOwnedBy, State.owned, initOp]⟩
  | pop => exact ⟨_, rfl, by simp [WritesOwnedBy, State.owned, popOp]⟩
  | post => exact ⟨_, rfl, by simp [WritesOwnedBy, State.owned, postOp]⟩
  | count => exact ⟨_, rfl, by simp [WritesOwnedBy, State.owned, countOp]⟩
  | edge => exact ⟨_, rfl, by simp [WritesOwnedBy, State.owned, edgeOp]⟩
  | pcdetect => exact ⟨_, rfl, by simp [WritesOwnedBy, State.owned, pcdetectOp]⟩
  | capture => exact ⟨_, rfl, by simp [WritesOwnedBy, (captureOp_frame s).owned]⟩
  | irtimeout => exact ⟨_, rfl, by rw [irtimeoutOp_owned]; simp [WritesOwnedBy]⟩
  | nop | peek | isany | reserved5 | reserved6 | reserved7 => exact ⟨_, rfl, .of_eq rfl⟩
  | qSame00 | qFwd01 | qSkip02 | qRev03 | qRev10 | qSame11 | qFwd12 | qSkip13
  | qSkip20 | qRev21 | qSame22 | qFwd23 | qFwd30 | qSkip31 | qRev32 | qSame33 =>
    exact ⟨_, rfl, .of_eq (transition_frame ..).owned⟩
  | qstep k => exact ⟨_, rfl, .of_eq (qstepOp_frame k s).owned⟩
  | ensample => exact ⟨_, rfl, .of_eq (ensampleOp_frame s).owned⟩
  | ensettle => exact ⟨_, rfl, .of_eq (ensettleOp_frame s).owned⟩
  | enabort => exact ⟨_, rfl, .of_eq (enabortOp_frame s).owned⟩
  | pcstart => exact ⟨_, rfl, .of_eq (pcstartOp_frame s).owned⟩
  | dbstart => exact ⟨_, rfl, .of_eq (dbstartOp_frame s).owned⟩
  | dbqual => exact ⟨_, rfl, .of_eq (dbqualOp_frame s).owned⟩
  | dbrel => exact ⟨_, rfl, .of_eq (dbrelOp_frame s).owned⟩
  | dbabort => exact ⟨_, rfl, .of_eq (dbabortOp_frame s).owned⟩
  | pkt | pktVolumeUp | pktVolumeDown | pktEnter | pktBack | pktDirUp | pktDirDown | pktDirLeft | pktDirRight =>
    exact ⟨_, rfl, .of_eq (completePacket_owned _ s)⟩
  | symLead => exact ⟨_, rfl, .of_eq (leadOp_owned s)⟩
  | symNotLead => exact ⟨_, rfl, .of_eq (notLeadOp_owned s)⟩
  | symZero => exact ⟨_, rfl, .of_eq (zeroOp_owned s)⟩
  | symOne => exact ⟨_, rfl, .of_eq (oneOp_owned s)⟩
  | symBad => exact ⟨_, rfl, .of_eq (badOp_owned s)⟩
  | width => exact ⟨_, rfl, .of_eq (widthOp_owned s)⟩
  | irarm => exact ⟨_, rfl, .of_eq (irarmOp_owned s)⟩
  | irsync => exact ⟨_, rfl, .of_eq (irsyncOp_owned s)⟩
  | irbit => exact ⟨_, rfl, .of_eq (irbitOp_owned s)⟩
  | iraddr => exact ⟨_, rfl, .of_eq (iraddrOp_owned s)⟩
  | ircmd => exact ⟨_, rfl, .of_eq (ircmdOp_owned s)⟩
  | irrel => exact ⟨_, rfl, .of_eq (irrelOp_owned s)⟩

/-- Settles O9: the operations one by one, and a tick of a valid configuration by its host operation. -/
theorem everyOperationCompletes : Obligations.EveryOperationCompletes :=
  ⟨exec_writesOwnedBy, fun _ => runs_of_valid⟩

end Sys2Proof.Machine

/-! The statements of 70_reset_and_hazards.md: what a reset tick leaves (rule R270), and a whole tick before `INIT` (rule
R271). For the latter first what the host operations answer then, and then the end of a tick with both engines disabled. -/

namespace Sys2Proof.Machine

open Sys2Proof

/-! ### The reset tick -/

/-- Settles O7: a reset tick runs no operation, and what it leaves is `State.reset` but for the parameters and the
environment's schedule. -/
theorem resetTickLeavesResetState : Obligations.ResetTickLeavesResetState := by
  intro s i rest hv hi hr
  refine ⟨_, step_reset hv hi hr, ?_⟩
  simp [State.resetTick, State.reset, Outputs.quiet, State.evtPending]

/-! ### The host operations before `INIT` -/

/-- The response of a host operation other than `INIT` while no event and no remote frame is there: only `ISANY` can
answer something, and it reads the raw button lines (rule R271). -/
def rawAnswer (op : HostWord) (btnN : LineMask) : Byte :=
  if op = 0b100#3 ∧ (~~~btnN &&& 0x3F#6) ≠ 0#6 then 0x01#8 else 0x00#8

theorem rawAnswer_of_notIsany {op : HostWord} (notIsany : op ≠ 0b100#3) (btnN : LineMask) :
    rawAnswer op btnN = 0x00#8 := if_neg fun ⟨isany, _⟩ => notIsany isany

/-- `POP` on an empty mailbox leaves it as it was. -/
theorem popOp_empty {s : State} (empty : s.evt = 0x00#8) : popOp s = s.withResponse 0x00#8 := by
  rw [popOp, State.withResponse, ← empty]
  rfl

theorem peekOp_empty {s : State} (empty : s.evt = 0x00#8) : peekOp s = s.withResponse 0x00#8 := by
  rw [peekOp, empty]

/-- With the decoder idle `ISANY` reads the button lines only. -/
theorem isanyOp_irIdle {s : State} (idle : s.irSt = .idle) :
    isanyOp s = s.withResponse (rawAnswer 0b100#3 s.wires.inp.btnN) := by
  rw [isanyOp_eq]
  simp [rawAnswer, idle, State.mask, pressedMask]

/-- On an empty mailbox and an idle decoder every host operation but `INIT` writes its response and nothing else. -/
theorem exec_rawAnswer {s : State} {op : HostWord} (notInit : op ≠ 0b001#3) (idle : s.irSt = .idle)
    (empty : s.evt = 0x00#8) :
    exec (decodeHost op) s = .next (s.withResponse (rawAnswer op s.wires.inp.btnN)) := by
  rw [exec_decodeHost, if_neg notInit]
  by_cases isany : op = 0b100#3
  · subst isany
    exact congrArg Host.Outcome.next (isanyOp_irIdle idle)
  · rw [rawAnswer_of_notIsany isany, if_neg isany, popOp_empty empty, peekOp_empty empty, noCall, ite_self, ite_self]

/-! ### The end of a tick with both engines disabled -/

/-- With both enables clear no trigger is taken and neither engine steps. -/
theorem enginesDone_bothDisabled {u : State} (icie : u.icie = false) (pcie : u.pcie = false) :
    enginesDone u = { u with wires := { u.wires with cap := none, width := none } } := by
  rw [enginesDone, irStep_held (by simp [State.irRuns, icie])]
  exact pchStep_held (by simp [State.pchRuns, pcie])

/-- With both enables clear the end of a tick writes `pc_prev` and counts, and a change of the pins sets no flag. -/
theorem finishTick_bothDisabled {u : State} (icie : u.icie = false) (pcie : u.pcie = false)
    (unheld : u.wires.hold = false) (noClr : u.wires.clr = false) (noPosts : u.wires.posts = ⟨none, none, none, none⟩) :
    finishTick u = { u with wires := Wires.idle, pcPrev := u.pins, tcnt := countUp u.cfg u.tcnt } := by
  rw [finishTick_eq, enginesDone_bothDisabled icie pcie]
  simp [pcie, unheld, noClr, noPosts, nextPcif, applyPost, State.pins]

/-- Settles O18: phase P2 writes the response only, and then the engines do not step and nothing is posted. -/
theorem beforeInitNothingMoves : Obligations.BeforeInitNothingMoves := by
  intro s i rest hv hi hr notInit pcie icie irIdle empty
  have host := exec_rawAnswer (s := beginTick i { s with inputs := rest }) notInit irIdle empty
  exact (step_exec hv hi hr host).trans
    (congrArg Host.Outcome.next (finishTick_bothDisabled icie pcie rfl rfl rfl))

end Sys2Proof.Machine
